-- ==== Sys2Proof/Word.lean ====
section
/-! DEFINITION. The word types of the chip: 64-bit Daxner scalars, 32-bit registers and vector elements, bytes. -/

namespace Sys2Proof

/-- One byte. -/
abbrev Byte := BitVec 8

/-- A 32-bit register of the register space, or one vector element (R59, R103). -/
abbrev Word := BitVec 32

/-- A 64-bit scalar register (R103). -/
abbrev Dword := BitVec 64

/-- A sparse store: a list of key and value pairs.  Its canonical form (keys rising, no entry equal to the
value an unlisted key reads as) is `SMap.wf` in Machine/Store.lean. -/
abbrev SMap (α : Type) := List (Nat × α)

end Sys2Proof
end

