-- ==== Sys2Proof/Syntax.lean ====
section
/-! DEFINITION. The commands of the block: one constructor of `Instr` per row of the spec's table of operations and
events, with the operands the outside world supplies. -/

namespace Sys2Proof

/-- A core that executes Daxner instructions: the sequencer of tile n or a Ranger core. -/
inductive CoreId where
  | tile (n : Fin 144)
  | ranger (k : Fin 4)
  deriving DecidableEq, Repr

/-- An agent that may issue a register access (R60). -/
inductive Agent where
  | tile (n : Fin 144)
  | ranger (k : Fin 4)
  | scaler
  | jtag
  deriving DecidableEq, Repr

/-- A bit upset of one stored copy of a voted register since the last sweep: register offset, copy 0 to 2, bits. -/
structure VoteHit where
  off : BitVec 23
  copy : Fin 3
  bits : Word
  deriving DecidableEq, Repr

/-- The upsets of voted copies around a sweep: those it finds, and those that come after it. -/
structure VoteHits where
  before : List VoteHit
  later : List VoteHit
  deriving DecidableEq, Repr

/-- A frame for a receive ring, and the offset of the clock from its master in ns with which it leaves the runtime
(R503). -/
structure MacFrame where
  bytes : List Byte
  ptp : Option Dword := none
  deriving DecidableEq, Repr

/-- A level of an odometer channel and the PCLK samples for which it has held (R475). -/
structure OdoLevel where
  level : Bool
  held : BitVec 9
  deriving DecidableEq, Repr

/-- What the islands of the tray say to a GRANT: on a chip at positions 1 to 3, whether chip 0's island answers that the
cap fits; on chip 0, the sum of the caps of the tray's other chips. -/
structure BusCaps where
  fits : Bool
  others : BitVec 10
  deriving DecidableEq, Repr

/-- The 54 V input over 50 ms in 0.1 W, and on a chip at positions 1 to 3 the camera port that chip 0's island sheds. -/
structure PoeInput where
  tenths : BitVec 16
  off : Option (Fin 4)
  deriving DecidableEq, Repr

/-- A cell upset in a protected 64-byte word: the word's key and the 64-bit lanes with one flipped bit and with two. -/
structure CellHit where
  word : Nat
  ones : BitVec 8
  twos : BitVec 8
  tags : BitVec 3 := 0
  deriving DecidableEq, Repr

/-- Flipped cells of one macro row: the row of a macro, and the columns 0 to 152 that flipped. -/
structure RowHit where
  mac : Fin 16
  row : Fin 4096
  bits : BitVec 153
  deriving DecidableEq, Repr

/-- A transient fault of a pass: by how much one delivered sum is off.  Channel 128 names the checksum lane. -/
structure PassHit where
  chan : Nat
  group : Fin 4
  delta : Int
  deriving DecidableEq, Repr

/-- A Yarder packet (Table 13-3) with its data words; a row of the table fixes TYPE, VC and NWORD. -/
structure Packet where
  type : Byte
  vc : BitVec 2
  nword : BitVec 5
  src : Byte
  dst : Byte
  tag : BitVec 24
  status : BitVec 4
  hops : BitVec 2
  addr : BitVec 40
  size : Byte
  poison : BitVec 16
  data : List Byte
  deriving DecidableEq, Repr

/-- The data word of a HELLO or HELLO_ACK (Table 13-6). -/
structure HelloWord where
  magic : Word
  version : Byte
  chip : Byte
  position : Byte
  link : Byte
  rate : Byte
  features : Byte
  credReq : BitVec 16
  credRsp : BitVec 16
  credBulk : BitVec 16
  credCtrl : BitVec 16
  retry : Byte
  uid : Dword
  stamp : Dword
  echo : Dword
  hold : Word
  deriving DecidableEq, Repr


/-- A TTCP datagram: the interface it came by (0 U0, 1 U1, 2 management port), its source address and port, its bytes,
and the chips of the tray that are ready, by position. -/
structure Ttcp where
  via : Fin 3
  ip : Word
  port : BitVec 16
  bytes : List Byte
  ready : BitVec 4
  deriving DecidableEq, Repr

/-- What a detection cycle of a camera port finds (R640): nothing connected, an invalid signature, a valid one whose
classification is invalid, or a class. -/
inductive PortSig where
  | empty | invalid | unclassified | cls (c : Fin 7)
  deriving DecidableEq, Repr

/-- The flags of an RF request to the Blaze tag: Select, Option, and the UID of an addressed request. -/
structure RfHead where
  select : Bool
  option : Bool
  uid : Option Dword
  deriving DecidableEq, Repr

/-- The commands, in the order of the table of operations and events. -/
inductive Instr where
  -- chapter 03: registers
  | registerWrite (a : Agent) (off : BitVec 23) (v : Word)
  | counterLowRead (a : Agent) (off : BitVec 23)
  | aliasWrite (a : Agent) (off : BitVec 23) (bit : BitVec 5) (v : Word)
  -- upsets of voted copies before and after the sweep
  | voteSweep (hits : VoteHits)
  | voteClr (a : Agent)
  | sweepNow (a : Agent)
  -- chapter 1, chip 0: inlet temperatures in 1/16 °C; fans as command, rpm and whether below 50 % of command; for chips
  -- 1 to 3 cap, minimum cap and wait fraction
  | envelopeReading (t0 t1 : Option (BitVec 12)) (fans : List (BitVec 8 × BitVec 16 × Bool))
      (peers : List (BitVec 8 × BitVec 8 × BitVec 16))
  | inletSensorInvalid (i : Fin 2)
  | trayInsert (straps : BitVec 9) (tag : Bool)
  | trayWithdraw
  -- chapter 04: tasks; `v` is the word written to TILE_TASK_CTRL, in which the row fixes GO, RESUME and STOP
  | taskGo (a : Agent) (n : Fin 144) (v : Word)
  | taskResume (a : Agent) (n : Fin 144) (v : Word)
  | taskStop (a : Agent) (n : Fin 144) (v : Word)
  | taskDrainComplete (n : Fin 144)
  | deferredExceptionReport (c : CoreId) (code : BitVec 6) (engine : BitVec 4) (unit : BitVec 16) (tval : Dword)
  | loadResponse (c : CoreId)
  -- chapter 05: scalar instructions of core `c`
  | illegalInstruction (c : CoreId) (w : Word)
  | add (c : CoreId) (rd rs1 rs2 : BitVec 5)
  | sub (c : CoreId) (rd rs1 rs2 : BitVec 5)
  | and (c : CoreId) (rd rs1 rs2 : BitVec 5)
  | or (c : CoreId) (rd rs1 rs2 : BitVec 5)
  | xor (c : CoreId) (rd rs1 rs2 : BitVec 5)
  | sll (c : CoreId) (rd rs1 rs2 : BitVec 5)
  | srl (c : CoreId) (rd rs1 rs2 : BitVec 5)
  | sra (c : CoreId) (rd rs1 rs2 : BitVec 5)
  | slt (c : CoreId) (rd rs1 rs2 : BitVec 5)
  | sltu (c : CoreId) (rd rs1 rs2 : BitVec 5)
  | seq (c : CoreId) (rd rs1 rs2 : BitVec 5)
  | min (c : CoreId) (rd rs1 rs2 : BitVec 5)
  | max (c : CoreId) (rd rs1 rs2 : BitVec 5)
  | minu (c : CoreId) (rd rs1 rs2 : BitVec 5)
  | maxu (c : CoreId) (rd rs1 rs2 : BitVec 5)
  | mul (c : CoreId) (rd rs1 rs2 : BitVec 5)
  | mulh (c : CoreId) (rd rs1 rs2 : BitVec 5)
  | mulhu (c : CoreId) (rd rs1 rs2 : BitVec 5)
  | div (c : CoreId) (rd rs1 rs2 : BitVec 5)
  | divu (c : CoreId) (rd rs1 rs2 : BitVec 5)
  | rem (c : CoreId) (rd rs1 rs2 : BitVec 5)
  | remu (c : CoreId) (rd rs1 rs2 : BitVec 5)
  | addi (c : CoreId) (rd rs1 : BitVec 5) (imm : BitVec 12)
  | andi (c : CoreId) (rd rs1 : BitVec 5) (imm : BitVec 12)
  | ori (c : CoreId) (rd rs1 : BitVec 5) (imm : BitVec 12)
  | xori (c : CoreId) (rd rs1 : BitVec 5) (imm : BitVec 12)
  | slli (c : CoreId) (rd rs1 : BitVec 5) (sh : BitVec 6)
  | srli (c : CoreId) (rd rs1 : BitVec 5) (sh : BitVec 6)
  | srai (c : CoreId) (rd rs1 : BitVec 5) (sh : BitVec 6)
  | slti (c : CoreId) (rd rs1 : BitVec 5) (imm : BitVec 12)
  | sltiu (c : CoreId) (rd rs1 : BitVec 5) (imm : BitVec 12)
  | ldhi (c : CoreId) (rd : BitVec 5) (imm : BitVec 20)
  | addpch (c : CoreId) (rd : BitVec 5) (imm : BitVec 20)
  | lb (c : CoreId) (rd rs1 : BitVec 5) (imm : BitVec 12)
  | lh (c : CoreId) (rd rs1 : BitVec 5) (imm : BitVec 12)
  | lw (c : CoreId) (rd rs1 : BitVec 5) (imm : BitVec 12)
  | ld (c : CoreId) (rd rs1 : BitVec 5) (imm : BitVec 12)
  | lbu (c : CoreId) (rd rs1 : BitVec 5) (imm : BitVec 12)
  | lhu (c : CoreId) (rd rs1 : BitVec 5) (imm : BitVec 12)
  | lwu (c : CoreId) (rd rs1 : BitVec 5) (imm : BitVec 12)
  | sb (c : CoreId) (rs1 rs2 : BitVec 5) (imm : BitVec 12)
  | sh (c : CoreId) (rs1 rs2 : BitVec 5) (imm : BitVec 12)
  | sw (c : CoreId) (rs1 rs2 : BitVec 5) (imm : BitVec 12)
  | sd (c : CoreId) (rs1 rs2 : BitVec 5) (imm : BitVec 12)
  | vld (c : CoreId) (vd rs1 : BitVec 5) (msk : BitVec 3) (imm : BitVec 12)
  | vst (c : CoreId) (rs1 vs2 : BitVec 5) (msk : BitVec 3) (imm : BitVec 12)
  | beq (c : CoreId) (rs1 rs2 : BitVec 5) (imm : BitVec 12)
  | bne (c : CoreId) (rs1 rs2 : BitVec 5) (imm : BitVec 12)
  | blt (c : CoreId) (rs1 rs2 : BitVec 5) (imm : BitVec 12)
  | bge (c : CoreId) (rs1 rs2 : BitVec 5) (imm : BitVec 12)
  | bltu (c : CoreId) (rs1 rs2 : BitVec 5) (imm : BitVec 12)
  | bgeu (c : CoreId) (rs1 rs2 : BitVec 5) (imm : BitVec 12)
  | jl (c : CoreId) (rd : BitVec 5) (imm : BitVec 20)
  | jlr (c : CoreId) (rd rs1 : BitVec 5) (imm : BitVec 12)
  | mfsr (c : CoreId) (rd : BitVec 5) (sr : BitVec 3)
  | mtsr (c : CoreId) (sr : BitVec 3) (rs1 : BitVec 5)
  | eret (c : CoreId)
  | halt (c : CoreId) (imm : BitVec 12)
  | trap (c : CoreId) (imm : BitVec 12)
  | brk (c : CoreId) (imm : BitVec 12)
  | iflush (c : CoreId)
  -- chapter 05: vector and mask instructions; `ty` 0 F32, 1 BF16, 2 I32
  | vadd (c : CoreId) (ty : BitVec 2) (vd vs1 vs2 : BitVec 5) (msk : BitVec 3)
  | vsub (c : CoreId) (ty : BitVec 2) (vd vs1 vs2 : BitVec 5) (msk : BitVec 3)
  | vmul (c : CoreId) (ty : BitVec 2) (vd vs1 vs2 : BitVec 5) (msk : BitVec 3)
  | vfma (c : CoreId) (ty : BitVec 2) (vd vs1 vs2 : BitVec 5) (msk : BitVec 3)
  | vfms (c : CoreId) (ty : BitVec 2) (vd vs1 vs2 : BitVec 5) (msk : BitVec 3)
  | vmax (c : CoreId) (ty : BitVec 2) (vd vs1 vs2 : BitVec 5) (msk : BitVec 3)
  | vmin (c : CoreId) (ty : BitVec 2) (vd vs1 vs2 : BitVec 5) (msk : BitVec 3)
  | vabs (c : CoreId) (ty : BitVec 2) (vd vs1 : BitVec 5) (msk : BitVec 3)
  | vneg (c : CoreId) (ty : BitVec 2) (vd vs1 : BitVec 5) (msk : BitVec 3)
  | vexp2 (c : CoreId) (ty : BitVec 2) (vd vs1 : BitVec 5) (msk : BitVec 3)
  | vlog2 (c : CoreId) (ty : BitVec 2) (vd vs1 : BitVec 5) (msk : BitVec 3)
  | vrcp (c : CoreId) (ty : BitVec 2) (vd vs1 : BitVec 5) (msk : BitVec 3)
  | vrsq (c : CoreId) (ty : BitVec 2) (vd vs1 : BitVec 5) (msk : BitVec 3)
  | vand (c : CoreId) (ty : BitVec 2) (vd vs1 vs2 : BitVec 5) (msk : BitVec 3)
  | vor (c : CoreId) (ty : BitVec 2) (vd vs1 vs2 : BitVec 5) (msk : BitVec 3)
  | vxor (c : CoreId) (ty : BitVec 2) (vd vs1 vs2 : BitVec 5) (msk : BitVec 3)
  | vsll (c : CoreId) (ty : BitVec 2) (vd vs1 vs2 : BitVec 5) (msk : BitVec 3)
  | vsrl (c : CoreId) (ty : BitVec 2) (vd vs1 vs2 : BitVec 5) (msk : BitVec 3)
  | vsra (c : CoreId) (ty : BitVec 2) (vd vs1 vs2 : BitVec 5) (msk : BitVec 3)
  | vceq (c : CoreId) (ty : BitVec 2) (md : BitVec 3) (vs1 vs2 : BitVec 5) (msk : BitVec 3)
  | vclt (c : CoreId) (ty : BitVec 2) (md : BitVec 3) (vs1 vs2 : BitVec 5) (msk : BitVec 3)
  | vcle (c : CoreId) (ty : BitVec 2) (md : BitVec 3) (vs1 vs2 : BitVec 5) (msk : BitVec 3)
  | vcvt (c : CoreId) (kind : BitVec 5) (vd vs1 : BitVec 5) (msk : BitVec 3)
  | vredsum (c : CoreId) (ty : BitVec 2) (vd vs1 : BitVec 5) (msk : BitVec 3)
  | vredmax (c : CoreId) (ty : BitVec 2) (vd vs1 : BitVec 5) (msk : BitVec 3)
  | vredmin (c : CoreId) (ty : BitVec 2) (vd vs1 : BitVec 5) (msk : BitVec 3)
  | vperm (c : CoreId) (vd vs1 vs2 : BitVec 5) (msk : BitVec 3)
  | vrot (c : CoreId) (vd vs1 rs2 : BitVec 5) (msk : BitVec 3)
  | vbcast (c : CoreId) (vd rs1 : BitVec 5) (msk : BitVec 3)
  | vext (c : CoreId) (rd vs1 rs2 : BitVec 5)
  | vins (c : CoreId) (vd rs1 rs2 : BitVec 5)
  | vmov (c : CoreId) (vd vs1 : BitVec 5) (msk : BitVec 3)
  | vsel (c : CoreId) (vd vs1 vs2 : BitVec 5) (msk : BitVec 3)
  | viota (c : CoreId) (vd : BitVec 5) (msk : BitVec 3)
  | mand (c : CoreId) (md m1 m2 : BitVec 3)
  | mor (c : CoreId) (md m1 m2 : BitVec 3)
  | mxor (c : CoreId) (md m1 m2 : BitVec 3)
  | mandn (c : CoreId) (md m1 m2 : BitVec 3)
  | mfm (c : CoreId) (rd : BitVec 5) (m1 : BitVec 3)
  | mtm (c : CoreId) (md : BitVec 3) (rs1 : BitVec 5)
  -- chapter 06: tensor, scratchpad and synchronisation instructions
  | mload (c : CoreId) (rs1 : BitVec 5)
  | mrun (c : CoreId) (rs1 : BitVec 5)
  | mscrub (c : CoreId) (rs1 : BitVec 5)
  | accOpen (c : CoreId) (rs1 : BitVec 5)
  | accClose (c : CoreId) (rs1 : BitVec 5)
  | accFlush (c : CoreId) (rs1 : BitVec 5)
  | accStat (c : CoreId) (rs1 : BitVec 5)
  | accPeek (c : CoreId) (rd rs1 rs2 : BitVec 5)
  | qout (c : CoreId) (rs1 : BitVec 5)
  | spFill (c : CoreId) (rd rs1 rs2 : BitVec 5)
  | spCopy (c : CoreId) (rd rs1 rs2 : BitVec 5) (mode : BitVec 2)
  | spOperationEnd (n : Fin 144)
  | feWrite (c : CoreId) (scalar : Bool) (rs1 rs2 : BitVec 5)
  | feRead (c : CoreId) (scalar : Bool) (rd rs1 : BitVec 5)
  | fePeek (c : CoreId) (scalar : Bool) (rd rs1 rs2 : BitVec 5)
  | feSet (c : CoreId) (rs1 rs2 : BitVec 5)
  | feClear (c : CoreId) (rs1 rs2 : BitVec 5)
  | feRetry (n : Fin 144) (queue : Option (Fin 8))
  | feTimeout (n : Fin 144)
  | dmaPost (c : CoreId) (rd rs1 : BitVec 5) (q : Fin 8)
  | dmaWait (c : CoreId) (rs1 : BitVec 5) (q : Fin 8)
  | bar (c : CoreId) (b : Fin 8)
  | waitev (c : CoreId) (rd rs1 : BitVec 5) (all : Bool)
  | yield (c : CoreId) (k : Fin 16)
  | yieldEnd (c : CoreId)
  | phase (c : CoreId) (k : Fin 16)
  | waitTimeout (n : Fin 144)
  -- chapters 07 to 09: the engines of tile `n`
  | passComplete (n : Fin 144) (m : Fin 16) (first rerun : Option PassHit)
  | mloadDone (n : Fin 144) (target : Fin 26)
  | accCloseEnd (n : Fin 144)
  | qoutEnd (n : Fin 144)
  | debugWindowRead (tag : BitVec 17)
  | debugWindowWrite (tag : BitVec 17)
  -- chapter 10: the scratchpad
  | spRemoteAccess (tag : BitVec 17)
  | gbIdleWriteback (n : Fin 144) (entry : Fin 8)
  | ownerHandover (a : Agent) (n : Fin 144) (v : Word)
  | handoverComplete (n : Fin 144)
  | stripeWrite (a : Agent) (n : Fin 144) (i : Fin 4) (v : Word)
  | cacheWb (a : Agent) (n : Fin 144)
  | cacheInv (a : Agent) (n : Fin 144)
  | cacheMaintEnd (n : Fin 144)
  | spScrubWord (n : Fin 144) (hits : List CellHit)
  | spInitComplete (n : Fin 144)
  | eventBitSet (a : Agent) (n : Fin 144) (hi : Bool) (v : Word)
  | eventBitClear (a : Agent) (n : Fin 144) (hi : Bool) (v : Word)
  | dbgRegWrite (a : Agent) (n : Fin 144) (hi : Bool) (v : Word)
  -- chapter 11: HBM controller `i`
  | hbmRequest (tag : BitVec 17)
  | patrolRead (i : Fin 2) (hits : List CellHit)
  | refresh (i : Fin 2) (pc : Fin 32)
  | hbmTempRead (i : Fin 2) (t : BitVec 8)
  | selfRefreshEntry (a : Agent) (i : Fin 2) (v : Word)
  | selfRefreshExit (a : Agent) (i : Fin 2) (v : Word)
  | srSequenceComplete (i : Fin 2) (recheckOk : Bool) (failPc : Fin 32)
  | ceClr (a : Agent) (i : Fin 2) (v : Word)
  | ueClr (a : Agent) (i : Fin 2) (v : Word)
  | hbmCeHour (i : Fin 2)
  | hbmBringup (i : Fin 2) (id : Dword) (rfm : BitVec 16)
  | hbmTrainingDone (i : Fin 2) (rate : Option (BitVec 2)) (failPc : Fin 32)
  | hbmInitDone (i : Fin 2)
  -- chapter 12: mesh, Skidder, Choker
  | meshPacketRoute (tag : BitVec 17) (parityError : Bool)
  | dmaDescriptorStart (n : Fin 144) (q : Fin 8)
  | dmaDescriptorComplete (n : Fin 144) (q : Fin 8)
  | dmaTimeout (n : Fin 144) (q : Fin 8)
  | skqRestart (a : Agent) (n : Fin 144) (mask : BitVec 8)
  | skqSkip (a : Agent) (n : Fin 144) (mask : BitVec 8)
  | chokerResponse (tag : BitVec 17)
  | tagExpiry (tag : BitVec 17)
  | quotaWrite (a : Agent) (n : Fin 144) (v : Word)
  -- chapter 13: Yarder link `k`; `p` is the packet's header and data
  | flitReceive (k : Fin 64) (fec : BitVec 8) (bytes : List Byte)
  | rd (k : Fin 64) (p : Packet)
  | wr (k : Fin 64) (p : Packet)
  | feRd (k : Fin 64) (p : Packet)
  | feWr (k : Fin 64) (p : Packet)
  | yarderFePeek (k : Fin 64) (p : Packet)
  | yarderFeSet (k : Fin 64) (p : Packet)
  | feClr (k : Fin 64) (p : Packet)
  | rdRsp (k : Fin 64) (p : Packet)
  | wrAck (k : Fin 64) (p : Packet)
  | feRsp (k : Fin 64) (p : Packet)
  | wrBulk (k : Fin 64) (p : Packet)
  | bulkAck (k : Fin 64) (p : Packet)
  | trainingComplete (k : Fin 64) (ok : Bool) (settings : BitVec 24)
  | hello (k : Fin 64) (h : HelloWord)
  | helloAck (k : Fin 64) (h : HelloWord)
  | linkLost (k : Fin 64) (codeword : Bool)
  | failover (k : Fin 64) (src : Byte) (lost : Fin 64) (lastSeq : Byte)
  | packetForward (k : Fin 64) (p : Packet)
  | windowOpen (a : Agent) (w : BitVec 8) (v : Word)
  | windowClose (a : Agent) (w : BitVec 8) (v : Word)
  | closeNote (k : Fin 64) (src : Byte) (w : BitVec 8) (base : BitVec 40) (len : BitVec 15)
  | drained (k : Fin 64) (src : Byte) (w : BitVec 8)
  | windowCloseTimeout (w : BitVec 8)
  | linkSleep (a : Agent) (k : Fin 64) (v : Word)
  | retrain (a : Agent) (k : Fin 64) (v : Word)
  | linkCntClr (a : Agent) (k : Fin 64) (v : Word)
  -- chapter 14: Landing MAC `k` receives a frame (R470 to R477); stream entry `n`
  | gvspLeader (k : Fin 4) (frame : List Byte)
  | gvspPayload (k : Fin 4) (frame : List Byte)
  | gvspTrailer (k : Fin 4) (frame : List Byte)
  | rxRingFrame (k : Fin 5) (frame : MacFrame)
  | frameTimeout (n : Fin 64)
  | tokenDelivery (n : Fin 64)
  | streamRelease (a : Agent) (n : Fin 64) (v : Word)
  | streamEnable (a : Agent) (n : Fin 64) (v : Word)
  | streamLost (n : Fin 64) (fault : Bool)
  | txFrameSend (k : Fin 6)
  | macLinkChange (k : Fin 5) (speed : BitVec 2)
  | timeStep (a : Agent) (v : Word)
  | odoPreset (a : Agent) (v : Word)
  | odoEdge (chA chB : OdoLevel)
  -- chapter 15: the runtime; on chip 0 `peers` and `others` are what the instances of the tray's other chips hand on
  | findingsPoll (peers : List (List Byte))
  | findingsDatagram
  | portTableRefresh (others : List (Fin 19 × List Byte))
  | taskFaultNotice (n : Fin 144)
  | serviceRestart
  | serviceDrainEnd (limit : Bool)
  -- TTCP: the row gives the datagram its TYPE; `answers`: every other mapped chip answers with SLOT_OK 1; `ok`: the
  -- flash took the write
  | ttcpHello (q : Ttcp)
  | status (q : Ttcp)
  | ports (q : Ttcp)
  | regRead (q : Ttcp)
  | regWrite (q : Ttcp)
  | tally (q : Ttcp)
  | netSet (q : Ttcp)
  | start (q : Ttcp) (answers : Bool)
  | stop (q : Ttcp)
  | quiesce (q : Ttcp)
  | resume (q : Ttcp)
  | findDest (q : Ttcp)
  | findReplay (q : Ttcp)
  | updBegin (q : Ttcp)
  | updData (q : Ttcp) (ok : Bool)
  | updCommit (q : Ttcp) (ok : Bool)
  | budget (q : Ttcp)
  | ptpRole (q : Ttcp)
  | ident (q : Ttcp)
  | retain (q : Ttcp)
  | reset (q : Ttcp)
  -- the console
  | consoleStatus (ready : BitVec 4)
  | consolePorts (p : Option (Fin 19))
  | consoleTally (n : Option Nat)
  | consoleRr (chip off : Nat) (count : Option Nat) (ready : BitVec 4)
  | consoleRw (chip off : Nat) (v : Word) (ready : BitVec 4)
  | consoleStart (base : Option (BitVec 8)) (answers : Bool)
  | consoleStop
  | consoleQuiesce
  | consoleResume
  | consoleNet (i addr mask gw : Word)
  | consoleDest (addr port : Word)
  | consolePtp (role : Nat)
  | consoleIdent (on : Bool)
  | consoleReset
  | consolePoweroff
  | consoleRetain
  -- recovery blocks on UART0: SEQ, payload and CRC as received
  | recoveryBegin (seq : BitVec 16) (payload : List Byte) (crc : BitVec 16)
  | recoveryData (seq : BitVec 16) (payload : List Byte) (crc : BitVec 16) (ok : Bool)
  | recoveryCommit (seq : BitVec 16) (payload : List Byte) (crc : BitVec 16) (ok : Bool)
  | recoveryReboot (seq : BitVec 16) (payload : List Byte) (crc : BitVec 16)
  | recoveryAnnounce
  | recoveryBlockTimeout
  -- chapter 16: domain `d`, quadrant `q`, sensor `i`
  | estimatorPeriod (counts : List (List Nat))
  | calibration (ms : List (Option (BitVec 16)))
  | measMissing (d : Fin 8) (rail : BitVec 8)
  | capLoopIteration
  | railSettled (q : Fin 4)
  | fixedAck (a : Agent) (v : Word)
  | opEntryWrite (a : Agent) (k : Fin 16) (v : Word)
  | capFloorWrite (a : Agent) (floor : Bool) (v : Word)
  | prioWrite (a : Agent) (v : Word)
  | tileGate (n : Fin 144)
  | tileWake (a : Agent) (i : Fin 5) (v : Word)
  | tileWakeComplete (n : Fin 144)
  | quadrantRequest (a : Agent) (q : Fin 4) (v : Word)
  | quadrantEntryComplete (q : Fin 4)
  | quadrantWakeComplete (q : Fin 4)
  | waitPeriodEnd
  | droopDetect (q : Fin 4)
  | sensorConversion (ts : List (Option (BitVec 12)))
  | sensorInvalid (i : Fin 36)
  | thermalTrip (i : Fin 36)
  | tripClear (a : Agent) (v : Word)
  -- chapter 17: power messages on link `k`
  | report (k : Fin 64) (p : Packet)
  | grant (k : Fin 64) (p : Packet) (bus : BusCaps)
  | grantAck (k : Fin 64) (p : Packet)
  | cruiserCycle
  | decreaseTimeout (c : Fin 64)
  | envelopeMissing (tray : Fin 16)
  -- PoE: camera port `c` with its class; `granted` is the answer of chip 0's island on another chip
  | poeGrantRequest (c : Fin 16) (cls : Option (Fin 7)) (granted : Bool)
  | poeBudgetWrite (a : Agent) (v : Word)
  | poeOverload (input : PoeInput)
  | regulatorAlert
  | alertRelease
  | alertAck (a : Agent) (v : Word)
  -- chapter 18: `straps`: the levels of MFP0 to MFP8; `tag`: the Blaze tag answers; `cause`: BUTTON, TTCP, WDOG, REF, PLL;
  -- `stack`: the stack whose rail an HBM rail is
  | sscApply (pll : Fin 5)
  | powerOnReset (straps : BitVec 9) (tag : Bool)
  | trayReset (cause : Fin 5) (tag : Bool)
  | bootStepTimeout (step : Fin 13)
  | watchdogArm (a : Agent) (v : Word)
  | wdogKick (a : Agent) (v : Word)
  | watchdogExpiry
  | swdogKick (a : Agent) (v : Word)
  | scalerWatchdogExpiry
  -- the 100 MHz reference as counted, in kHz
  | referenceCheck (khz : Word)
  | referenceReturn
  | pllLockLoss (pll : Fin 6)
  | softReset (a : Agent) (v : Word)
  | tileReset (a : Agent) (i : Fin 5) (v : Word)
  | retentionWake (src : Fin 5)
  | inputLoss (decivolts : BitVec 16)
  | rideThrough
  | inputLossTimeout
  | railFailure (rail : Fin 9) (stack : Fin 2)
  -- chapter 19: errors, scrubbing, repair, the Tally
  | nqRead (a : Agent) (k : Fin 4)
  | rqRead (a : Agent)
  | restoreGo (a : Agent) (v : Word)
  | restoreDone
  | restoreTimeout (n : Fin 144) (m : Fin 16) (rg : Fin 32)
  | macroScrubRow (n : Fin 144) (hits : List RowHit)
  | logRead (a : Agent) (rewritten : Bool)
  | logOverflowSecond
  | integCntClr (a : Agent) (v : Word)
  | repairMapWrite (a : Agent) (v : Word)
  | repairLock (a : Agent) (v : Word)
  | opsecWrite
  | eventRaise (code : BitVec 16) (src : Byte) (detail : Dword)
  | tallyRaise (a : Agent) (v : Word)
  | tallyClear (a : Agent) (v : Word)
  | tallyFreeze (a : Agent) (v : Word)
  -- chapter 20: port `k` of this chip; `granted`: the answer of chip 0's island on another chip
  | detectionCycle (k : Fin 4) (sig : PortSig) (granted : Bool)
  | phyLinkUp (k : Fin 4) (speed : BitVec 3) (partner : Dword) (lengths : Word)
  | phyLinkDown (k : Fin 4)
  | cableTdrTimer (k : Fin 4)
  | cableTest (a : Agent) (k : Fin 4) (v : Word) (lengths : Word)
  | currentSample (k : Fin 4) (ma : BitVec 16) (mps : Bool)
  | portEnableWrite (a : Agent) (k : Fin 4) (v : Word)
  | vinSample (vin iin : BitVec 16)
  | buttonPress (b : Fin 3)
  | buttonHold (b : Fin 3)
  | buttonRelease (b : Fin 3) (ms : Nat)
  | buttonStuck (b : Fin 3)
  -- chapter 21: RF requests, and the wired bridge
  | inventory (h : RfHead) (len : BitVec 7) (mask : Dword)
  | stayQuiet (h : RfHead)
  | readSingleBlock (h : RfHead) (b : BitVec 8)
  | extendedReadSingleBlock (h : RfHead) (b : BitVec 16)
  | writeSingleBlock (h : RfHead) (b : BitVec 8) (d : Word)
  | extendedWriteSingleBlock (h : RfHead) (b : BitVec 16) (d : Word)
  | lockBlock (h : RfHead) (b : BitVec 8)
  | extendedLockBlock (h : RfHead) (b : BitVec 16)
  | readMultipleBlocks (h : RfHead) (b : BitVec 8) (k : BitVec 8)
  | extendedReadMultipleBlocks (h : RfHead) (b : BitVec 16) (k : BitVec 16)
  | writeMultipleBlocks (h : RfHead) (b : BitVec 8) (ds : List Word)
  | extendedWriteMultipleBlocks (h : RfHead) (b : BitVec 16) (ds : List Word)
  | getSystemInformation (h : RfHead)
  | extendedGetSystemInformation (h : RfHead)
  | lockRecord (h : RfHead) (record : BitVec 8) (session : BitVec 16)
  | releaseRecord (h : RfHead) (record : BitVec 8) (session : BitVec 16)
  | readLocks (h : RfHead)
  -- the field collapses, during the write of `ds` from block `b` after `done` blocks, or before a whole command
  | fieldCollapse (write : Option (RfHead × BitVec 16 × List Word × Nat))
  | lockExpiry (notes : Bool)
  | blazeRead (a : Agent) (v : Word)
  | blazeWrite (a : Agent) (v : Word)
  | blazeLockRecord (a : Agent) (v : Word)
  | blazeReleaseRecord (a : Agent) (v : Word)
  -- whether the tag acknowledges the first attempt, and the repetition
  | blazeOpDone (first again : Bool)
  | serviceFlagPoll
  -- chapter 22: UART `k`; `line` lists the transitions of the receive line in PCLK cycles after a start edge, falling
  -- at 0 and then rising and falling in turn
  | characterReceive (k : Fin 2) (line : List Nat)
  | glitch (k : Fin 2)
  | breakReceive (k : Fin 2)
  | idleLine (k : Fin 2)
  | rxRead (a : Agent) (k : Fin 2)
  | txWrite (a : Agent) (k : Fin 2) (v : Word)
  | characterTransmit (k : Fin 2)
  | sendBreak (a : Agent) (k : Fin 2) (v : Word)
  | rxFlush (a : Agent) (k : Fin 2) (v : Word)
  | txFlush (a : Agent) (k : Fin 2) (v : Word)
  -- chapter 23: pin `i`
  | funcHandover (a : Agent) (i : Fin 32) (v : Word)
  | handoverConnect (i : Fin 32)
  | gpioEdge (i : Fin 32) (level : Bool)
  -- chapter 24
  | holdupLow (decivolts : BitVec 16)
  -- rows 395 to 400
  | pllLocked (q : Fin 4)
  | droopEnd (q : Fin 4) (stretched : BitVec 32)
  | breakEnd (k : Fin 2) (sixteenths : Nat)
  | breakLengthLimit (k : Fin 2)
  -- rows 399 and 400
  | accStatEnd (n : Fin 144)
  | mscrubEnd (n : Fin 144)
  -- row 401: faults of pairs A to D, 3 bits each, and the distance to the first in 0.1 m
  | reflectometryTestEnd (k : Fin 4) (faults : BitVec 12) (dist : BitVec 16)
  deriving DecidableEq, Repr

end Sys2Proof
end

