-- ==== Sys2Proof/Decode.lean ====
section
/-! DEFINITION. The command that a word of the opcode table spells.  No row of the table gives its command any bits, so no
word spells one.  The words of Daxner instructions, which a core fetches, are decoded in Machine/Words.lean. -/

namespace Sys2Proof

/-- The command that a word spells by the table's bits. -/
def decodeTableWord (_nbits _w : Nat) : Option Instr := none

end Sys2Proof
end

