-- ==== Sys2Proof/Machine/Bits.lean ====
section
/-! DEFINITION. Bit fields, byte order and check codes: the helpers the meanings share. -/

namespace Sys2Proof

/-- Field [hi:lo] of a register, as a number (Notation, chapter 00). -/
def fld {w : Nat} (v : BitVec w) (hi lo : Nat) : Nat := (v.toNat >>> lo) % 2 ^ (hi + 1 - lo)

/-- The register with field [hi:lo] replaced by `x` (modulo the field's width). -/
def setFld {w : Nat} (v : BitVec w) (hi lo : Nat) (x : Nat) : BitVec w :=
  let m := BitVec.ofNat w ((2 ^ (hi + 1 - lo) - 1) <<< lo)
  (v &&& ~~~m) ||| (BitVec.ofNat w (x <<< lo) &&& m)

/-- Bit `i` of a word. -/
def bitOf {w : Nat} (v : BitVec w) (i : Nat) : Bool := v.getLsbD i

/-- A Boolean as a number. -/
def b2n (b : Bool) : Nat := if b then 1 else 0

/-- Sign-extend to 64 bits (R137). -/
def sx64 {w : Nat} (v : BitVec w) : Dword := v.signExtend 64

/-- Zero-extend to 64 bits. -/
def zx64 {w : Nat} (v : BitVec w) : Dword := v.setWidth 64

/-- The number that a list of bytes holds, little-endian (Notation, chapter 00). -/
def leNat : List Byte → Nat
  | [] => 0
  | b :: bs => b.toNat + 256 * leNat bs

/-- `n` bytes of a number, little-endian. -/
def leBytes : Nat → Nat → List Byte
  | 0, _ => []
  | n + 1, x => BitVec.ofNat 8 x :: leBytes n (x / 256)

/-- The number that a list of bytes holds, big-endian (R454). -/
def beNat (bs : List Byte) : Nat := leNat bs.reverse

/-- Bytes `o` to `o + n - 1` of a list as a little-endian number; bytes beyond the end count 0. -/
def leAt (bs : List Byte) (o n : Nat) : Nat := leNat ((bs.drop o).take n)

/-- The value of a bit pattern of width `w` as two's complement. -/
def sInt (w x : Nat) : Int :=
  let y := x % 2 ^ w
  if 2 * y < 2 ^ w then (y : Int) else (y : Int) - (2 ^ w : Nat)

/-- One bit step of the CRC-16 of R181: polynomial 0x1021, most significant bit first. -/
def crc16Bit (c : Nat) (b : Bool) : Nat :=
  let top := (c / 2 ^ 15) % 2 = 1
  let c' := (c * 2) % 2 ^ 16
  if top != b then c' ^^^ 0x1021 else c'

/-- One byte step of the CRC-16. -/
def crc16Byte (c : Nat) (x : Byte) : Nat :=
  (List.range 8).foldl (fun c i => crc16Bit c (x.getLsbD (7 - i))) c

/-- The CRC-16 of R181: initial value 0xFFFF, no reflection, no final exclusive or. -/
def crc16 (bs : List Byte) : Nat := bs.foldl crc16Byte 0xFFFF

/-- One byte step of the reflected CRC-32 of R410. -/
def crc32Byte (c : Nat) (x : Byte) : Nat :=
  (List.range 8).foldl (fun c _ => if c % 2 = 1 then (c / 2) ^^^ 0xEDB88320 else c / 2) (c ^^^ x.toNat)

/-- The CRC-32 of R410 (IEEE 802.3 frame check sequence). -/
def crc32 (bs : List Byte) : Nat := (bs.foldl crc32Byte 0xFFFFFFFF) ^^^ 0xFFFFFFFF

/-- The bits set in a number, below `n`. -/
def popc (x n : Nat) : Nat := ((List.range n).filter (fun i => x.testBit i)).length

/-- The list of the bit positions set in a number, below `n`, rising. -/
def bitsSet (x n : Nat) : List Nat := (List.range n).filter (fun i => x.testBit i)

/-- One more, stopping at 2^w - 1 (a counter that saturates). -/
def satInc {w : Nat} (v : BitVec w) : BitVec w := if v = BitVec.allOnes w then v else v + 1

/-- `n` more, stopping at 2^w - 1. -/
def satAdd {w : Nat} (v : BitVec w) (n : Nat) : BitVec w := BitVec.ofNat w (min (v.toNat + n) (2 ^ w - 1))

/-- The bitwise majority of three copies (R68). -/
def maj3 {w : Nat} (a b c : BitVec w) : BitVec w := (a &&& b) ||| (a &&& c) ||| (b &&& c)

/-- Replace element `i` of a list, if it is there. -/
def lset {α : Type} (l : List α) (i : Nat) (x : α) : List α := l.set i x

end Sys2Proof
end

