-- ==== Sys2Proof/Machine/FP.lean ====
section
/-! DEFINITION. Floating-point arithmetic of FP32, BF16 and FP24 (R159 to R162, R255): an operation converts its operands
to exact numbers, computes exactly, and rounds once.  A format has an 8-bit exponent of bias 127 and `fb` fraction bits:
23 in FP32, 7 in BF16, 15 in FP24; patterns are numbers below 2^(fb + 9). -/

namespace Sys2Proof

/-- A decoded operand: the value of `fin` is plus or minus m * 2^e. -/
inductive Fp where
  | nan
  | inf (neg : Bool)
  | fin (neg : Bool) (m : Nat) (e : Int)
  deriving DecidableEq, Repr

/-- Decode a pattern; a subnormal input counts as zero of its sign (R159). -/
def fpDec (fb x : Nat) : Fp :=
  let s := x / 2 ^ (fb + 8) % 2 = 1
  let ex := x / 2 ^ fb % 256
  let fr := x % 2 ^ fb
  if ex = 255 then (if fr = 0 then .inf s else .nan)
  else if ex = 0 then .fin s 0 0
  else .fin s (2 ^ fb + fr) ((ex : Int) - 127 - fb)

/-- The canonical quiet NaN (R159). -/
def fpNan (fb : Nat) : Nat := 255 * 2 ^ fb + 2 ^ (fb - 1)
/-- An infinity. -/
def fpInf (fb : Nat) (neg : Bool) : Nat := b2n neg * 2 ^ (fb + 8) + 255 * 2 ^ fb
/-- A zero. -/
def fpZero (fb : Nat) (neg : Bool) : Nat := b2n neg * 2 ^ (fb + 8)

/-- m * 2^(-k) to the nearest integer, ties to even; `sticky`: the true value lies strictly between m and m + 1. -/
def rneShift (m k : Nat) (sticky : Bool) : Nat :=
  if k = 0 then m
  else
    let q := m / 2 ^ k
    let r := m % 2 ^ k
    let half := 2 ^ (k - 1)
    if r > half || (r == half && (sticky || q % 2 == 1)) then q + 1 else q

/-- Round a positive or negative value m * 2^e, or one strictly between m and m + 1 times 2^e, to the format: to nearest
even, overflow to infinity, a subnormal result to zero of its sign (R159). -/
def fpRound (fb : Nat) (neg : Bool) (m : Nat) (e : Int) (sticky : Bool := false) : Nat :=
  if m = 0 then fpZero fb neg
  else
    let top : Int := e + Nat.log2 m
    let q : Int := max top (-126) - fb
    let sig := if q ≤ e then m * 2 ^ (e - q).toNat else rneShift m (q - e).toNat sticky
    if sig < 2 ^ fb then fpZero fb neg
    else
      let (sig, q) := if sig = 2 ^ (fb + 1) then (2 ^ fb, q + 1) else (sig, q)
      let ex := q + fb + 127
      if 255 ≤ ex then fpInf fb neg else b2n neg * 2 ^ (fb + 8) + ex.toNat * 2 ^ fb + (sig - 2 ^ fb)

/-- Encode a decoded value in a format. -/
def fpEnc (fb : Nat) : Fp → Nat
  | .nan => fpNan fb
  | .inf s => fpInf fb s
  | .fin s m e => fpRound fb s m e

/-- The exact sum of decoded values; an exact zero sum is +0 unless both are -0. -/
def fpSum : Fp → Fp → Fp
  | .nan, _ => .nan
  | _, .nan => .nan
  | .inf s, .inf t => if s = t then .inf s else .nan
  | .inf s, _ => .inf s
  | _, .inf t => .inf t
  | .fin s m e, .fin t n f =>
    if m = 0 ∧ n = 0 then .fin (s && t) 0 0
    else if m = 0 then .fin t n f
    else if n = 0 then .fin s m e
    else
      let l := min e f
      let a : Int := m * 2 ^ (e - l).toNat
      let b : Int := n * 2 ^ (f - l).toNat
      let z : Int := (if s then -a else a) + (if t then -b else b)
      .fin (decide (z < 0)) z.natAbs l

/-- The exact product of decoded values. -/
def fpProd : Fp → Fp → Fp
  | .nan, _ => .nan
  | _, .nan => .nan
  | .inf s, .inf t => .inf (s != t)
  | .inf s, .fin t n _ => if n = 0 then .nan else .inf (s != t)
  | .fin s m _, .inf t => if m = 0 then .nan else .inf (s != t)
  | .fin s m e, .fin t n f => .fin (s != t) (m * n) (e + f)

/-- Negation of a decoded value. -/
def fpFlip : Fp → Fp
  | .nan => .nan
  | .inf s => .inf (!s)
  | .fin s m e => .fin (!s) m e

/-- a + b. -/
def fpAdd (fb a b : Nat) : Nat := fpEnc fb (fpSum (fpDec fb a) (fpDec fb b))
/-- a - b. -/
def fpSub (fb a b : Nat) : Nat := fpEnc fb (fpSum (fpDec fb a) (fpFlip (fpDec fb b)))
/-- a * b. -/
def fpMul (fb a b : Nat) : Nat := fpEnc fb (fpProd (fpDec fb a) (fpDec fb b))
/-- c + a * b, rounded once. -/
def fpFma (fb c a b : Nat) : Nat := fpEnc fb (fpSum (fpDec fb c) (fpProd (fpDec fb a) (fpDec fb b)))
/-- c - a * b, rounded once. -/
def fpFms (fb c a b : Nat) : Nat := fpEnc fb (fpSum (fpDec fb c) (fpFlip (fpProd (fpDec fb a) (fpDec fb b))))

/-- a / b. -/
def fpDiv (fb a b : Nat) : Nat :=
  match fpDec fb a, fpDec fb b with
  | .nan, _ => fpNan fb
  | _, .nan => fpNan fb
  | .inf _, .inf _ => fpNan fb
  | .inf s, .fin t _ _ => fpInf fb (s != t)
  | .fin s _ _, .inf t => fpZero fb (s != t)
  | .fin s m e, .fin t n f =>
    if n = 0 then (if m = 0 then fpNan fb else fpInf fb (s != t))
    else fpRound fb (s != t) (m * 2 ^ 64 / n) (e - f - 64) (decide (m * 2 ^ 64 % n ≠ 0))

/-- The integer square root, bit by bit from bit i - 1. -/
def isqrtBits (n : Nat) : Nat → Nat → Nat
  | 0, r => r
  | i + 1, r => if (r + 2 ^ i) * (r + 2 ^ i) ≤ n then isqrtBits n i (r + 2 ^ i) else isqrtBits n i r

/-- 1/x (R162, Table 5-11). -/
def fpRcp (fb x : Nat) : Nat :=
  match fpDec fb x with
  | .nan => fpNan fb
  | .inf s => fpZero fb s
  | .fin s m e =>
    if m = 0 then fpInf fb s
    else fpRound fb s (2 ^ 96 / m) (-e - 96) (decide (2 ^ 96 % m ≠ 0))

/-- 1/√x (R162, Table 5-11). -/
def fpRsq (fb x : Nat) : Nat :=
  match fpDec fb x with
  | .nan => fpNan fb
  | .inf s => if s then fpNan fb else fpZero fb false
  | .fin s m e =>
    if m = 0 then fpInf fb s
    else if s then fpNan fb
    else
      let (m, e) := if e % 2 = 0 then (m, e) else (2 * m, e - 1)
      let y := isqrtBits (2 ^ 160 / m) 80 0
      fpRound fb false y (-(e / 2) - 80) (decide (y * y * m ≠ 2 ^ 160))

/-- Working precision of the function instructions, in fraction bits: far beyond the format's, so that rounding the
approximation rounds the exact function. -/
def fpPrec : Nat := 256

/-- ln 2 in units of 2^-256: the sum of 1/(k 2^k). -/
def fpLn2 : Nat := (List.range 270).foldl (fun a i => a + 2 ^ fpPrec / ((i + 1) * 2 ^ (i + 1))) 0

/-- e^t for t in [0, 1), both in units of 2^-256, by its series. -/
def fpExpSeries (t : Nat) : Nat :=
  ((List.range 70).foldl (fun (a : Nat × Nat) i =>
    let term := a.2 * t / 2 ^ fpPrec / (i + 1)
    (a.1 + term, term)) (2 ^ fpPrec, 2 ^ fpPrec)).1

/-- 2^x (R162, Table 5-11). -/
def fpExp2 (fb x : Nat) : Nat :=
  match fpDec fb x with
  | .nan => fpNan fb
  | .inf s => if s then fpZero fb false else fpInf fb false
  | .fin s m e =>
    if m = 0 then 127 * 2 ^ fb
    else if 0 < e + Nat.log2 m - 9 then (if s then fpZero fb false else fpInf fb false)
    else
      -- x in units of 2^-256, exact, since e is at least -149
      let v : Int := m * 2 ^ (e + fpPrec).toNat
      let v := if s then -v else v
      let n := v / (2 ^ fpPrec : Int)
      let f := (v % (2 ^ fpPrec : Int)).toNat
      if f = 0 then fpRound fb false 1 n
      else fpRound fb false (fpExpSeries (f * fpLn2 / 2 ^ fpPrec)) (n - fpPrec) true

/-- ln z for z in [1, 2), both in units of 2^-256: twice the series of artanh at (z - 1)/(z + 1). -/
def fpLnSeries (z : Nat) : Nat :=
  let one := 2 ^ fpPrec
  let t := (z - one) * one / (z + one)
  let t2 := t * t / one
  2 * ((List.range 90).foldl (fun (a : Nat × Nat) i => (a.1 + a.2 / (2 * i + 1), a.2 * t2 / one)) (0, t)).1

/-- log₂ x (R162, Table 5-11). -/
def fpLog2 (fb x : Nat) : Nat :=
  match fpDec fb x with
  | .nan => fpNan fb
  | .inf s => if s then fpNan fb else fpInf fb false
  | .fin s m e =>
    if m = 0 then fpInf fb true
    else if s then fpNan fb
    else
      let l := Nat.log2 m
      let ex : Int := e + l
      if m = 2 ^ l then fpRound fb (decide (ex < 0)) ex.natAbs 0
      else
        let z := m * 2 ^ (fpPrec - l)
        let v : Int := ex * (2 ^ fpPrec : Int) + (fpLnSeries z * 2 ^ fpPrec / fpLn2 : Nat)
        if v < 0 then fpRound fb true (v.natAbs - 1) (-(fpPrec : Int)) true
        else fpRound fb false v.toNat (-(fpPrec : Int)) true

/-- a < b on decoded numbers that are no NaN, with -0 equal to +0. -/
def fpLt : Fp → Fp → Bool
  | .nan, _ => false
  | _, .nan => false
  | .inf s, .inf t => s && !t
  | .inf s, .fin .. => s
  | .fin .., .inf t => !t
  | .fin s m e, .fin t n f =>
    let l := min e f
    let a : Int := m * 2 ^ (e - l).toNat
    let b : Int := n * 2 ^ (f - l).toNat
    decide ((if s then -a else a) < (if t then -b else b))

/-- Is a pattern a NaN. -/
def fpIsNan (fb x : Nat) : Bool := fpDec fb x == .nan

/-- A pattern with a subnormal replaced by zero of its sign. -/
def fpFlush (fb x : Nat) : Nat := if x / 2 ^ fb % 256 = 0 then x / 2 ^ (fb + 8) % 2 * 2 ^ (fb + 8) else x

/-- Does a precede b, with -0 before +0 (R161). -/
def fpBefore (fb a b : Nat) : Bool :=
  fpLt (fpDec fb a) (fpDec fb b) ||
    (!fpLt (fpDec fb b) (fpDec fb a) && a / 2 ^ (fb + 8) % 2 == 1 && b / 2 ^ (fb + 8) % 2 == 0)

/-- The larger operand (R161). -/
def fpMax (fb a b : Nat) : Nat :=
  match fpIsNan fb a, fpIsNan fb b with
  | true, true => fpNan fb
  | true, false => fpFlush fb b
  | false, true => fpFlush fb a
  | false, false => if fpBefore fb a b then fpFlush fb b else fpFlush fb a

/-- The smaller operand (R161). -/
def fpMin (fb a b : Nat) : Nat :=
  match fpIsNan fb a, fpIsNan fb b with
  | true, true => fpNan fb
  | true, false => fpFlush fb b
  | false, true => fpFlush fb a
  | false, false => if fpBefore fb b a then fpFlush fb b else fpFlush fb a

/-- A pattern of one format rounded to another. -/
def fpCvt (from' to' x : Nat) : Nat := fpEnc to' (fpDec from' x)

/-- A signed integer as a pattern, to nearest even. -/
def fpOfInt (fb : Nat) (i : Int) : Nat := fpRound fb (decide (i < 0)) i.natAbs 0

/-- A finite value rounded to an integer: to nearest even, or toward zero. -/
def finToInt (s : Bool) (m : Nat) (e : Int) (trunc : Bool) : Int :=
  let a : Nat := if 0 ≤ e then m * 2 ^ e.toNat
    else if trunc then m / 2 ^ (-e).toNat else rneShift m (-e).toNat false
  if s then -(a : Int) else a

/-- FP32 to I32: saturating, NaN to 0 (Table 5-13). -/
def fpToI32 (x : Nat) (trunc : Bool) : Int :=
  let clamp := fun (i : Int) => max (-2147483648) (min 2147483647 i)
  match fpDec 23 x with
  | .nan => 0
  | .inf s => if s then -2147483648 else 2147483647
  | .fin s m e => if 64 < e then (if m = 0 then 0 else if s then -2147483648 else 2147483647)
    else clamp (finToInt s m e trunc)

/-- FP32 arithmetic on words. -/
def f32Add (a b : Word) : Word := BitVec.ofNat 32 (fpAdd 23 a.toNat b.toNat)
def f32Sub (a b : Word) : Word := BitVec.ofNat 32 (fpSub 23 a.toNat b.toNat)
def f32Mul (a b : Word) : Word := BitVec.ofNat 32 (fpMul 23 a.toNat b.toNat)
def f32Div (a b : Word) : Word := BitVec.ofNat 32 (fpDiv 23 a.toNat b.toNat)
/-- A signed integer over a power of two as FP32, to nearest even. -/
def f32OfInt (i : Int) (e : Int := 0) : Word := BitVec.ofNat 32 (fpRound 23 (decide (i < 0)) i.natAbs e)
/-- BF16 to FP32. -/
def f32OfBf16 (x : Nat) : Word := BitVec.ofNat 32 (fpCvt 7 23 x)

end Sys2Proof
end

