-- ==== Sys2Proof/Config.lean ====
section
/-! DEFINITION. What a part fixes and the spec leaves to it: fused and calibrated values, unpublished contents, and
the free values.  Each constant is opaque: no statement can rest on a value of it. -/

namespace Sys2Proof

/-- The fused 64-bit die identifier (chapter 03, CHIP_UID). -/
opaque Config.uid : BitVec 64
/-- How many 25 MHz units the fused FMAX lies above 60 (R757). -/
opaque Config.fmaxExtra : BitVec 2
/-- How many 5 mV units the fused VMAX lies above 170 (R757). -/
opaque Config.vmaxExtra : BitVec 6
/-- How many watts the fused CAPMAX lies above 175 (R757). -/
opaque Config.capmaxExtra : BitVec 6
/-- The event coefficients PWR_COEFd_k "calibrated at test", indexed by 4 d + k (chapter 16, Registers). -/
opaque Config.coef : Nat → BitVec 16
/-- The unpublished contents of the boot ROM, byte by byte (R58). -/
opaque Config.romByte : Nat → Byte
/-- The flow hash of R429, of source chip, requester, destination chip and destination tile. -/
opaque Config.flowHash : Nat → Nat → Nat → Nat → Nat
/-- How many spare rows fused repairs took in bank `b` of tile `n`: at most 4 (R757). -/
opaque Config.bankSpares : Nat → Nat → Fin 5
/-- How many spare columns fused repairs took in macro `m` of tile `n`: at most 4 (R757). -/
opaque Config.macroSpares : Nat → Nat → Fin 5
/-- What stands for the tray number of a chip that belongs to no tray (R96, log 64). -/
opaque Config.noTray : Byte
/-- The 64-bit UID of the Blaze tag (R669). -/
opaque Config.tagUid : BitVec 64
/-- The boot flash: its JEDEC identity, log2 of its size in MiB, and whether it has an SFDP table that reports an
8D-8D-8D read mode (R645). -/
opaque Config.flashId : BitVec 24
opaque Config.flashLog : BitVec 4
opaque Config.flashSfdp : Bool
/-- A value the spec leaves open: the `n`-th drawn, of `w` bits.  `State.draws` counts the draws. -/
opaque Config.freeValue : (w : Nat) → Nat → BitVec w

/-- The boot flash passes R645: with that, it reports at least 512 MiB. -/
def Config.flashOk : Bool := Config.flashSfdp && decide (9 ≤ Config.flashLog.toNat)
/-- PWR_FUSE.FMAX: at least 60 on every part (R757). -/
def Config.fmax : Nat := 60 + Config.fmaxExtra.toNat
/-- PWR_FUSE.VMAX: at least 170 (R757). -/
def Config.vmax : Nat := 170 + Config.vmaxExtra.toNat
/-- PWR_FUSE.CAPMAX: at least 175 W (R757). -/
def Config.capmax : Nat := 175 + Config.capmaxExtra.toNat
/-- CLK_FUSE.SSC_MAX on every part of stepping B (R757). -/
def Config.sscMax : Nat := 10

end Sys2Proof
end

