-- ==== Sys2Proof/Machine/RegTable.lean ====
section
/-! DEFINITION. The register space as the register tables of the spec give it: the block map of Table 3-3, the name
of every register's offset, and for every register its fields with access code, reset value and change class. -/

namespace Sys2Proof.Machine
open Sys2Proof

/-- The access codes of Table 0-2. -/
inductive Acc where
  | rw | ro | wo | w1c | w1s | rwv | rov
  deriving DecidableEq, Repr

/-- The change classes of Table 0-3; a class L field carries the bit of PEND (bits 32 up: PEND_HI) that serves it,
`lInst` meaning the row's own index (R458). -/
inductive Cls where
  | none | i | q | l (pend : Nat) | lInst
  deriving DecidableEq, Repr

/-- One field of a register table. -/
structure RField where
  hi : Nat
  lo : Nat
  acc : Acc
  reset : Nat := 0
  cls : Cls := .i
  deriving DecidableEq, Repr

/-- One row of a register table: `n` registers at `off + stride * i` within the block instance. -/
structure RReg where
  off : Nat
  n : Nat := 1
  stride : Nat := 4
  fields : List RField
  deriving DecidableEq, Repr

/-- The block kinds of Table 3-3. -/
inductive Blk where
  | chip | clk | pwr | therm | pins | uart | tally | integ | mgmt | time | tile | mesh | yarder | yfab | hbm
  | landing | ranger | choker
  deriving DecidableEq, Repr

/-- Table 3-3: base offset. -/
def Blk.base : Blk → Nat
  | .chip => 0x000000 | .clk => 0x010000 | .pwr => 0x020000 | .therm => 0x030000 | .pins => 0x040000
  | .uart => 0x050000 | .tally => 0x060000 | .integ => 0x070000 | .mgmt => 0x080000 | .time => 0x090000
  | .tile => 0x100000 | .mesh => 0x200000 | .yarder => 0x300000 | .yfab => 0x310000 | .hbm => 0x400000
  | .landing => 0x500000 | .ranger => 0x600000 | .choker => 0x700000

/-- Table 3-3: instances. -/
def Blk.count : Blk → Nat
  | .uart => 2 | .tile => 144 | .yarder => 64 | .hbm => 2 | _ => 1

/-- Table 3-3: size of one instance, which is also the stride where there are several. -/
def Blk.size : Blk → Nat
  | .uart => 0x1000 | .tile => 0x1000 | .yarder => 0x400 | _ => 0x10000

/-- Table 3-3: kind code. -/
def Blk.kind : Blk → Nat
  | .chip => 0x01 | .clk => 0x02 | .pwr => 0x03 | .therm => 0x04 | .pins => 0x05 | .uart => 0x06 | .tally => 0x07
  | .integ => 0x08 | .mgmt => 0x09 | .time => 0x0A | .tile => 0x10 | .mesh => 0x20 | .yarder => 0x30
  | .yfab => 0x31 | .hbm => 0x40 | .landing => 0x50 | .ranger => 0x60 | .choker => 0x70

/-- The blocks that the island holds (Table 3-3, Home). -/
def Blk.island : Blk → Bool
  | .chip | .clk | .pwr | .therm | .pins | .uart | .tally | .mgmt | .time => true
  | _ => false

/-- Every block kind, in the order of Table 3-3. -/
def Blk.all : List Blk :=
  [.chip, .clk, .pwr, .therm, .pins, .uart, .tally, .integ, .mgmt, .time, .tile, .mesh, .yarder, .yfab, .hbm,
   .landing, .ranger, .choker]

/-- Where a register-space offset lies: block kind, instance and offset in the instance. -/
structure Loc where
  blk : Blk
  inst : Nat
  rel : Nat
  deriving DecidableEq, Repr

/-- The block instance that occupies an offset, if any (R86).  Offsets 0x400 to 0x7FF of MGMT are unmapped
(chapter 20, Registers). -/
def locate (off : Nat) : Option Loc :=
  (Blk.all.find? (fun b => decide (b.base ≤ off ∧ off < b.base + b.count * b.size))).bind fun b =>
    let r := off - b.base
    if b = .mgmt ∧ 0x400 ≤ r ∧ r < 0x800 then Option.none
    else some ⟨b, r / b.size, r % b.size⟩

def rw (hi lo : Nat) (r : Nat := 0) (c : Cls := .i) : RField := ⟨hi, lo, .rw, r, c⟩
def ro (hi lo : Nat) (r : Nat := 0) : RField := ⟨hi, lo, .ro, r, .none⟩
def wo (hi lo : Nat) : RField := ⟨hi, lo, .wo, 0, .i⟩
def w1c (hi lo : Nat) (r : Nat := 0) : RField := ⟨hi, lo, .w1c, r, .i⟩
def w1s (hi lo : Nat) : RField := ⟨hi, lo, .w1s, 0, .i⟩
def rwv (hi lo : Nat) (r : Nat := 0) (c : Cls := .i) : RField := ⟨hi, lo, .rwv, r, c⟩
def rov (hi lo : Nat) (r : Nat := 0) : RField := ⟨hi, lo, .rov, r, .none⟩
/-- A read-only count or word of 32 bits. -/
def cnt : List RField := [ro 31 0]
/-- A 32-bit RW word. -/
def word (c : Cls := .i) : List RField := [rw 31 0 0 c]

end Sys2Proof.Machine

/-! Offsets of the registers within their block instance, by the spec's names. -/
namespace Sys2Proof.Reg
-- common header, Table 3-5
def BLK_ID : Nat := 0x000
def CFG_STAT : Nat := 0x004
def PEND : Nat := 0x008
def PEND_HI : Nat := 0x00C
-- CHIP (absolute offsets: the block lies at 0)
def CHIP_ID : Nat := 0x010
def CHIP_POS : Nat := 0x014
def CHIP_UID_LO : Nat := 0x018
def CHIP_UID_HI : Nat := 0x01C
def CHIP_VOTE_CNT : Nat := 0x020
def CHIP_VOTE_LAST : Nat := 0x024
def CHIP_VOTE_SWEEP : Nat := 0x028
def CHIP_REJ_SUM : Nat := 0x02C
def CHIP_CTRL : Nat := 0x030
def CHIP_BADACC : Nat := 0x034
def CHIP_SCRATCH0 : Nat := 0x040
-- CLK (absolute)
def CLK_LOCK : Nat := 0x010010
def CLK_SSC : Nat := 0x010014
def CLK_REF : Nat := 0x010018
def CLK_FUSE : Nat := 0x01001C
def CLK_RST_CAUSE : Nat := 0x010020
def CLK_WDOG : Nat := 0x010024
def CLK_WDOG_KICK : Nat := 0x010028
def CLK_SWDOG : Nat := 0x01002C
def CLK_SRST : Nat := 0x010030
def CLK_TRST (i : Nat) : Nat := 0x010034 + 4 * i
def CLK_LIFE : Nat := 0x010060
def CLK_WAKE : Nat := 0x010064
def CLK_WAKE_AT_LO : Nat := 0x010068
def CLK_WAKE_AT_HI : Nat := 0x01006C
def CLK_RAIL : Nat := 0x010070
def CLK_BOOT_MS : Nat := 0x010074
-- PWR (absolute)
def PWR_CTRL : Nat := 0x020010
def PWR_CAP : Nat := 0x020014
def PWR_PRIO : Nat := 0x020018
def PWR_FLOOR : Nat := 0x02001C
def PWR_HEADROOM : Nat := 0x020020
def PWR_CAL : Nat := 0x020024
def PWR_FUSE : Nat := 0x020028
def PWR_CAP_STAT : Nat := 0x02002C
def PWR_CONS : Nat := 0x020030
def PWR_OP (k : Nat) : Nat := 0x020040 + 4 * k
def PWR_PHASE (p : Nat) : Nat := 0x020080 + 4 * p
def PWR_FIXED : Nat := 0x0200C0
def PWR_FIX_VIOL : Nat := 0x0200C4
def PWR_FIX_HELD : Nat := 0x0200C8
def PWR_Q_CTRL (q : Nat) : Nat := 0x020100 + 16 * q
def PWR_Q_STAT (q : Nat) : Nat := 0x020104 + 16 * q
def PWR_TGATE (i : Nat) : Nat := 0x020140 + 4 * i
def PWR_TWAKE (i : Nat) : Nat := 0x020154 + 4 * i
def PWR_TGATED (i : Nat) : Nat := 0x020168 + 4 * i
def PWR_EST_RAW (d : Nat) : Nat := 0x020180 + 4 * d
def PWR_EST (d : Nat) : Nat := 0x0201A0 + 4 * d
def PWR_MEAS (d : Nat) : Nat := 0x0201C0 + 4 * d
def PWR_GAIN (d : Nat) : Nat := 0x0201E0 + 4 * d
def PWR_OFF (d : Nat) : Nat := 0x020200 + 4 * d
def PWR_STATIC (d : Nat) : Nat := 0x020220 + 4 * d
def PWR_COEF (d k : Nat) : Nat := 0x020240 + 16 * d + 4 * k
def PWR_WAIT (p : Nat) : Nat := 0x020300 + 4 * p
def PWR_BUSY (p : Nat) : Nat := 0x020340 + 4 * p
def PWR_RACK : Nat := 0x020400
def PWR_GRANT : Nat := 0x020404
def PWR_GSEQ : Nat := 0x020408
def PWR_TRAYENV : Nat := 0x02040C
def PWR_CRU_BUDGET : Nat := 0x020410
def PWR_CRU_LEDGER : Nat := 0x020414
def PWR_CRU_CFG : Nat := 0x020418
def PWR_CRU_MOVED : Nat := 0x02041C
def PWR_ALERT : Nat := 0x020440
def PWR_ALERT_CNT : Nat := 0x020444
-- THERM (absolute)
def THERM_CTRL : Nat := 0x030010
def THERM_DROOP : Nat := 0x030014
def THERM_DROOP_CNT (q : Nat) : Nat := 0x030020 + 4 * q
def THERM_STRETCH (q : Nat) : Nat := 0x030030 + 4 * q
def THERM_SENS (s : Nat) : Nat := 0x030040 + 4 * s
def THERM_Q (q : Nat) : Nat := 0x0300E0 + 4 * q
def THERM_TRIP : Nat := 0x030100
-- PINS (absolute)
def PINS_GPIO_OUT : Nat := 0x040010
def PINS_GPIO_OE : Nat := 0x040014
def PINS_GPIO_IN : Nat := 0x040018
def PINS_GPIO_RISE : Nat := 0x04001C
def PINS_GPIO_FALL : Nat := 0x040020
def PINS_GPIO_EV : Nat := 0x040024
def PINS_STRAP : Nat := 0x040028
def PINS_HANDOVER : Nat := 0x04002C
def PINS_HO_BUSY : Nat := 0x040030
def PINS_CFG (i : Nat) : Nat := 0x040100 + 4 * i
-- UART n, relative
def UART_DIV : Nat := 0x010
def UART_FMT : Nat := 0x014
def UART_CTRL : Nat := 0x018
def UART_STAT : Nat := 0x01C
def UART_RX : Nat := 0x020
def UART_TX : Nat := 0x024
def UART_EV : Nat := 0x028
def UART_BRK : Nat := 0x02C
def UART_BRKLEN : Nat := 0x030
def UART_AB_CNT : Nat := 0x034
def UART_GLT_CNT : Nat := 0x038
def UART_OVR_CNT : Nat := 0x03C
def UART_FE_CNT : Nat := 0x040
def UART_PE_CNT : Nat := 0x044
/-- Register `r` of UART n. -/
def UART (n r : Nat) : Nat := 0x050000 + 0x1000 * n + r
-- TALLY (absolute)
def TALLY_CTRL : Nat := 0x060010
def TALLY_COUNT : Nat := 0x060014
def TALLY_LOST : Nat := 0x060018
def TALLY_RAISE_CODE : Nat := 0x060020
def TALLY_RAISE_LO : Nat := 0x060024
def TALLY_RAISE_HI : Nat := 0x060028
def TALLY_REC : Nat := 0x064000
def TALLY_ORIG : Nat := 0x068000
-- INTEG (absolute)
def INTEG_CTRL : Nat := 0x070010
def INTEG_MSCRUB : Nat := 0x070014
def INTEG_RESTORE_TO : Nat := 0x070018
def INTEG_SP_CE : Nat := 0x070020
def INTEG_SP_UE : Nat := 0x070024
def INTEG_MC_CE : Nat := 0x070028
def INTEG_MC_UE : Nat := 0x07002C
def INTEG_CS_CORR : Nat := 0x070030
def INTEG_CS_FAIL : Nat := 0x070034
def INTEG_LOG0 : Nat := 0x070040
def INTEG_LOG1 : Nat := 0x070044
def INTEG_LOG2 : Nat := 0x070048
def INTEG_LOG_LOST : Nat := 0x07004C
def INTEG_RQ : Nat := 0x070050
def INTEG_RST_SRC_LO : Nat := 0x070054
def INTEG_RST_SRC_HI : Nat := 0x070058
def INTEG_RST_CTL : Nat := 0x07005C
def INTEG_MH_SEL : Nat := 0x070060
def INTEG_MH_STATE_LO : Nat := 0x070064
def INTEG_MH_STATE_HI : Nat := 0x070068
def INTEG_MH_CNT0 : Nat := 0x07006C
def INTEG_MH_CNT1 : Nat := 0x070070
def INTEG_REPAIR : Nat := 0x070080
def INTEG_REP_MAP : Nat := 0x070084
def INTEG_SPARE : Nat := 0x070088
-- MGMT (absolute)
def MGMT_BTN : Nat := 0x080010
def MGMT_LED : Nat := 0x080014
def MGMT_VIN : Nat := 0x080018
def MGMT_INLET : Nat := 0x08001C
def MGMT_FAN (f : Nat) : Nat := 0x080020 + 4 * f
def MGMT_FLASH : Nat := 0x080030
def MGMT_POE_BUDGET : Nat := 0x080040
def MGMT_POE_PRIO : Nat := 0x080044
def MGMT_POE_GRANTED : Nat := 0x080048
def MGMT_PORT_CTRL (k : Nat) : Nat := 0x080100 + 32 * k
def MGMT_PORT_STAT (k : Nat) : Nat := 0x080104 + 32 * k
def MGMT_PORT_I (k : Nat) : Nat := 0x080108 + 32 * k
def MGMT_PORT_CABLE (k : Nat) : Nat := 0x08010C + 32 * k
def MGMT_PORT_PAIR (k : Nat) : Nat := 0x080110 + 32 * k
def MGMT_PORT_PARTNER_LO (k : Nat) : Nat := 0x080114 + 32 * k
def MGMT_PORT_PARTNER_HI (k : Nat) : Nat := 0x080118 + 32 * k
def MGMT_BLZ_CMD : Nat := 0x080800
def MGMT_BLZ_STAT : Nat := 0x080804
def MGMT_BLZ_SVC : Nat := 0x080808
def MGMT_BLZ_FDROP : Nat := 0x08080C
def MGMT_BLZ_DATA (i : Nat) : Nat := 0x080840 + 4 * i
-- TIME (absolute)
def TIME_CTRL : Nat := 0x090010
def TIME_RATE : Nat := 0x090014
def TIME_NOW_LO : Nat := 0x090018
def TIME_NOW_HI : Nat := 0x09001C
def TIME_STEP_LO : Nat := 0x090020
def TIME_STEP_HI : Nat := 0x090024
def TIME_STEP_CNT : Nat := 0x090028
def TIME_ODO_LO : Nat := 0x090030
def TIME_ODO_HI : Nat := 0x090034
def TIME_ODO_SET_LO : Nat := 0x090038
def TIME_ODO_SET_HI : Nat := 0x09003C
def TIME_ODO_CFG : Nat := 0x090040
def TIME_ODO_ERR : Nat := 0x090044
-- TILE n, relative
def TILE_CTRL : Nat := 0x010
def TILE_SP_STAT : Nat := 0x014
def TILE_OWNER : Nat := 0x018
def TILE_OWNER_MAP0 : Nat := 0x01C
def TILE_OWNER_MAP1 : Nat := 0x020
def TILE_STRIPE (i : Nat) : Nat := 0x024 + 4 * i
def TILE_RESIDENT : Nat := 0x034
def TILE_CACHE_CTRL : Nat := 0x038
def TILE_CACHE_HIT : Nat := 0x03C
def TILE_CACHE_MISS : Nat := 0x040
def TILE_SCRUB_CFG : Nat := 0x044
def TILE_FE_TIMEOUT : Nat := 0x048
def TILE_WAIT_TIMEOUT : Nat := 0x04C
def TILE_BUCK_SEED : Nat := 0x050
def TILE_SAT_CNT : Nat := 0x054
def TILE_REFUSE : Nat := 0x058
def TILE_REFUSE_CNT : Nat := 0x05C
def TILE_TASK_CTRL : Nat := 0x100
def TILE_TASK_STAT : Nat := 0x104
def TILE_TASK_PC_LO : Nat := 0x108
def TILE_TASK_PC_HI : Nat := 0x10C
def TILE_TASK_ARG (k : Nat) : Nat := 0x110 + 8 * k
def TILE_TASK_ID : Nat := 0x130
def TILE_TASK_SIZE : Nat := 0x134
def TILE_EV_LO : Nat := 0x140
def TILE_EV_HI : Nat := 0x144
def TILE_EVCLR_LO : Nat := 0x148
def TILE_EVCLR_HI : Nat := 0x14C
def TILE_DBG_SEL : Nat := 0x180
def TILE_DBG_LO : Nat := 0x184
def TILE_DBG_HI : Nat := 0x188
def TILE_SKQ_BASE (q : Nat) : Nat := 0x400 + 16 * q
def TILE_SKQ_CFG (q : Nat) : Nat := 0x404 + 16 * q
def TILE_SKQ_POST (q : Nat) : Nat := 0x408 + 16 * q
def TILE_SKQ_DONE (q : Nat) : Nat := 0x40C + 16 * q
def TILE_SKQ_STAT : Nat := 0x480
def TILE_SKQ_CTRL : Nat := 0x484
def TILE_SKQ_FAIL : Nat := 0x488
def TILE_SKQ_FADDR_LO : Nat := 0x48C
def TILE_SKQ_FADDR_HI : Nat := 0x490
def TILE_SKCNT (c : Nat) : Nat := 0x4C0 + 4 * c
/-- Register `r` of tile n. -/
def TILE (n r : Nat) : Nat := 0x100000 + 0x1000 * n + r
-- MESH (absolute)
def MESH_PERR_CNT : Nat := 0x200010
def MESH_PERR_LAST : Nat := 0x200014
-- YARDER k, relative
def YARDER_CTRL : Nat := 0x010
def YARDER_STAT : Nat := 0x014
def YARDER_PEER : Nat := 0x018
def YARDER_UID_LO : Nat := 0x01C
def YARDER_UID_HI : Nat := 0x020
def YARDER_RTT : Nat := 0x024
def YARDER_CRED0 : Nat := 0x028
def YARDER_CRED1 : Nat := 0x02C
def YARDER_FEC_CE : Nat := 0x030
def YARDER_FEC_UE : Nat := 0x034
def YARDER_CRC_ERR : Nat := 0x038
def YARDER_REPLAY : Nat := 0x03C
def YARDER_BADPKT : Nat := 0x040
def YARDER_TRAIN : Nat := 0x044
/-- Register `r` of link k. -/
def YARDER (k r : Nat) : Nat := 0x300000 + 0x400 * k + r
-- YFAB (absolute)
def YFAB_CTRL : Nat := 0x310010
def YFAB_PEER (c : Nat) : Nat := 0x310100 + 4 * c
def YFAB_ROUTE (c : Nat) : Nat := 0x310500 + 4 * c
/-- Register at `r` (0x00 to 0x1C) of window `w`. -/
def YFAB_WIN (w r : Nat) : Nat := 0x311000 + 32 * w + r
-- HBM i, relative
def HBM_CTRL : Nat := 0x010
def HBM_STAT : Nat := 0x014
def HBM_RATE : Nat := 0x018
def HBM_ID_LO : Nat := 0x01C
def HBM_ID_HI : Nat := 0x020
def HBM_TEMP : Nat := 0x024
def HBM_PATROL : Nat := 0x028
def HBM_CE_CNT : Nat := 0x02C
def HBM_UE_CNT : Nat := 0x030
def HBM_ERR_ADDR_LO : Nat := 0x034
def HBM_ERR_ADDR_HI : Nat := 0x038
def HBM_THROTTLE : Nat := 0x03C
/-- Register `r` of HBM controller i. -/
def HBM (i r : Nat) : Nat := 0x400000 + 0x10000 * i + r
-- LANDING (absolute)
def LANDING_CTRL : Nat := 0x500010
def LANDING_STAGE : Nat := 0x500014
def LANDING_STAGE_DROP : Nat := 0x500018
def MAC_CTRL (k : Nat) : Nat := 0x500100 + 32 * k
def MAC_STAT (k : Nat) : Nat := 0x500104 + 32 * k
def MAC_TSCORR (k : Nat) : Nat := 0x500108 + 32 * k
def MAC_RXBAD (k : Nat) : Nat := 0x50010C + 32 * k
def MAC_RINGDROP (k : Nat) : Nat := 0x500110 + 32 * k
/-- Register at `r` (0x00 to 0x10) of MAC k's receive ring: BASE_LO, BASE_HI, CFG, HEAD, TAIL. -/
def RXR (k r : Nat) : Nat := 0x500200 + 64 * k + r
/-- The same of MAC k's transmit ring. -/
def TXR (k r : Nat) : Nat := 0x500220 + 64 * k + r
/-- Register at `r` (0x00 to 0x3C) of stream entry n. -/
def STR (n r : Nat) : Nat := 0x501000 + 64 * n + r
-- RANGER (absolute)
def RANGER_SVC : Nat := 0x600010
/-- Register at `r` (0x00 to 0x1C) of Ranger core c: EVEC_LO, EVEC_HI, EV_LO, EV_HI, EVCLR_LO, EVCLR_HI, NQ, CSTAT. -/
def RANGER (c r : Nat) : Nat := 0x600100 + 0x40 * c + r
-- CHOKER (absolute)
def CHOKER_FREE : Nat := 0x700010
def CHOKER_ORPHAN_TOT : Nat := 0x700014
def CHOKER_LATE : Nat := 0x700018
def CHOKER_EXPIRED : Nat := 0x70001C
def CHOKER_RSV_HELD : Nat := 0x700020
def CHOKER_QUOTA (n : Nat) : Nat := 0x700100 + 4 * n
def CHOKER_HELD (n : Nat) : Nat := 0x700400 + 4 * n
def CHOKER_ORPHAN (n : Nat) : Nat := 0x700800 + 4 * n
def CHOKER_STALL (n : Nat) : Nat := 0x700C00 + 4 * n
end Sys2Proof.Reg

namespace Sys2Proof.Machine
open Sys2Proof

/-- CHIP (chapter 03, Registers).  UID carries its fused value. -/
def chipRegs : List RReg := [
  ⟨0x010, 1, 4, [ro 15 0 0x0144, ro 23 16 0x0B]⟩,
  ⟨0x014, 1, 4, [ro 1 0, ro 3 2, ro 7 4, ro 8 8, ro 9 9, ro 23 16]⟩,
  ⟨0x018, 1, 4, [ro 31 0 (Config.uid.toNat % 2 ^ 32)]⟩, ⟨0x01C, 1, 4, [ro 31 0 (Config.uid.toNat / 2 ^ 32)]⟩,
  ⟨0x020, 1, 4, cnt⟩, ⟨0x024, 1, 4, [ro 22 0, ro 27 23, ro 30 28, w1c 31 31]⟩, ⟨0x028, 1, 4, cnt⟩,
  ⟨0x02C, 1, 4, [ro 9 0, ro 10 10, ro 11 11, ro 12 12, ro 19 13]⟩, ⟨0x030, 1, 4, [wo 0 0, wo 1 1]⟩,
  ⟨0x034, 1, 4, [ro 22 0, ro 23 23, ro 25 24, ro 26 26, w1c 31 31]⟩, ⟨0x040, 4, 4, word⟩]

/-- CLK (chapter 18, Registers). -/
def clkRegs : List RReg := [
  ⟨0x010, 1, 4, [ro 3 0, ro 4 4, ro 5 5, ro 6 6, ro 7 7, ro 8 8]⟩,
  ⟨0x014, 1, 4, [rwv 0 0 1 (.l 0), rwv 4 1 5 (.l 0)]⟩, ⟨0x018, 1, 4, [ro 0 0, ro 31 16]⟩,
  ⟨0x01C, 1, 4, [rov 3 0 Config.sscMax, rov 15 8 64]⟩,
  ⟨0x020, 1, 4, [w1c 7 0, ro 8 8, w1c 9 9]⟩, ⟨0x024, 1, 4, [rwv 0 0, rwv 31 16 2000]⟩,
  ⟨0x028, 1, 4, [wo 15 0]⟩, ⟨0x02C, 1, 4, [wo 0 0]⟩, ⟨0x030, 1, 4, [wo 0 0, wo 1 1, wo 2 2, wo 5 3]⟩,
  ⟨0x034, 4, 4, [wo 31 0]⟩, ⟨0x044, 1, 4, [wo 15 0]⟩, ⟨0x060, 1, 4, [ro 3 0, ro 11 8]⟩,
  ⟨0x064, 1, 4, [rw 4 0 7, rw 31 16 1024]⟩, ⟨0x068, 2, 4, word⟩, ⟨0x070, 1, 4, [ro 15 0]⟩,
  ⟨0x074, 1, 4, [ro 15 0, ro 31 16]⟩]

/-- Table 16-1: FREQ (25 MHz units), VOLT (5 mV units) and LEAK (0.01 W) of each operating point at reset. -/
def opReset : List (Nat × Nat × Nat) :=
  [(16, 120, 80), (20, 123, 90), (24, 126, 100), (28, 129, 110), (32, 132, 130), (34, 134, 140), (36, 136, 150),
   (38, 138, 170), (40, 141, 190), (42, 143, 210), (44, 146, 230), (48, 150, 260), (51, 155, 290), (54, 160, 320),
   (57, 165, 360), (60, 170, 400)]

/-- The rows of the sixteen operating point entries, entry k at 0x040 + 4 k. -/
def opRegs : List RReg :=
  opReset.mapIdx fun k (f, v, l) => ⟨0x040 + 4 * k, 1, 4, [rwv 5 0 f (.l k), rwv 15 8 v (.l k), rwv 27 16 l (.l k)]⟩

/-- The rows of the event coefficients (chapter 16, Registers): PWR_COEFd_k at 0x240 + 16 d + 4 k. -/
def coefRegs : List RReg :=
  (List.range 32).map fun j => ⟨0x240 + 4 * j, 1, 4, [rw 15 0 (Config.coef j).toNat]⟩

/-- PWR (chapters 16 and 17, Registers). -/
def pwrRegs : List RReg := [
  ⟨0x010, 1, 4, [rw 3 0, rw 4 4 1, rw 5 5, rw 31 16 100]⟩, ⟨0x014, 1, 4, [rwv 7 0 150]⟩,
  ⟨0x018, 1, 4, [rwv 1 0 0, rwv 3 2 1, rwv 5 4 2]⟩, ⟨0x01C, 1, 4, [rwv 7 0 20, rwv 15 8 10, rwv 23 16 8]⟩,
  ⟨0x020, 1, 4, [rwv 5 0 8]⟩, ⟨0x024, 1, 4, [rw 13 0 1000]⟩,
  ⟨0x028, 1, 4, [rov 5 0 Config.fmax, rov 15 8 Config.vmax, rov 23 16 Config.capmax]⟩,
  ⟨0x02C, 1, 4, [ro 0 0, ro 31 16]⟩, ⟨0x030, 1, 4, [ro 5 0, ro 11 8, ro 23 16]⟩] ++ opRegs ++ [
  ⟨0x080, 16, 4, [rwv 3 0 11, rwv 5 4]⟩,
  ⟨0x0C0, 1, 4, [rwv 0 0 0 (.l 16), rwv 7 4 11 (.l 16), rwv 11 8 0 (.l 16), wo 12 12, ro 13 13]⟩,
  ⟨0x0C4, 1, 4, [ro 15 0, ro 17 16, ro 23 20]⟩, ⟨0x0C8, 1, 4, cnt⟩, ⟨0x100, 4, 16, [rw 1 0]⟩,
  ⟨0x104, 4, 16, [ro 2 0, ro 7 4, ro 11 8, ro 15 12 15, ro 19 16 15, ro 31 24]⟩,
  ⟨0x140, 4, 4, [rw 31 0]⟩, ⟨0x150, 1, 4, [rw 15 0]⟩, ⟨0x154, 4, 4, [wo 31 0]⟩, ⟨0x164, 1, 4, [wo 15 0]⟩,
  ⟨0x168, 5, 4, cnt⟩, ⟨0x180, 8, 4, [ro 15 0]⟩, ⟨0x1A0, 8, 4, [ro 15 0]⟩, ⟨0x1C0, 8, 4, [ro 15 0, ro 31 31]⟩,
  ⟨0x1E0, 8, 4, [ro 15 0 0x4000]⟩, ⟨0x200, 8, 4, [ro 15 0]⟩, ⟨0x230, 4, 4, [rw 15 0]⟩] ++ coefRegs ++ [
  ⟨0x300, 16, 4, cnt⟩, ⟨0x340, 16, 4, cnt⟩,
  ⟨0x400, 1, 4, [ro 0 0, ro 1 1, ro 15 8 40, ro 31 16]⟩, ⟨0x404, 1, 4, [ro 7 0]⟩, ⟨0x408, 1, 4, cnt⟩,
  ⟨0x40C, 1, 4, [ro 15 0 700]⟩, ⟨0x410, 1, 4, [ro 15 0 6000]⟩, ⟨0x414, 1, 4, [ro 15 0]⟩,
  ⟨0x418, 1, 4, [rw 4 0 4, rw 15 8 16]⟩, ⟨0x41C, 1, 4, cnt⟩,
  ⟨0x440, 1, 4, [ro 0 0, ro 1 1 1, ro 2 2, wo 3 3]⟩, ⟨0x444, 1, 4, cnt⟩]

/-- THERM (chapter 16, Registers). -/
def thermRegs : List RReg := [
  ⟨0x010, 1, 4, [rw 6 0 100]⟩, ⟨0x014, 1, 4, [rw 5 0 30]⟩, ⟨0x020, 4, 4, cnt⟩, ⟨0x030, 4, 4, cnt⟩,
  ⟨0x040, 36, 4, [ro 11 0, ro 12 12]⟩, ⟨0x0E0, 4, 4, [ro 11 0, ro 17 16, ro 29 24]⟩, ⟨0x100, 1, 4, [w1c 3 0]⟩]

/-- Reset FUNC, PULL and SLEW of each pin (Table 23-1; SLEW 0 is 30 ns, 1 is 10 ns). -/
def pinReset (i : Nat) : Nat × Nat × Nat :=
  if i ≤ 8 then (0, 0, 0)
  else if i ≤ 12 then (1, 2, 1)
  else if i ≤ 23 then (1, 0, 0)
  else if i = 24 then (1, 1, 0)
  else if i ≤ 27 then (1, 0, 0)
  else (1, 2, 0)

/-- PINS (chapter 23, Registers). -/
def pinsRegs : List RReg := [
  ⟨0x010, 1, 4, word⟩, ⟨0x014, 1, 4, word⟩, ⟨0x018, 1, 4, cnt⟩, ⟨0x01C, 1, 4, word⟩, ⟨0x020, 1, 4, word⟩,
  ⟨0x024, 1, 4, [w1c 31 0]⟩, ⟨0x028, 1, 4, [ro 8 0]⟩, ⟨0x02C, 1, 4, [rw 6 0 10]⟩, ⟨0x030, 1, 4, cnt⟩] ++
  (List.range 32).map fun i => ⟨0x100 + 4 * i, 1, 4,
    [rwv 2 0 (pinReset i).1, rw 5 4 (pinReset i).2.1, rw 9 8 (pinReset i).2.2, rw 12 12, rw 19 16]⟩

/-- UARTn (chapter 22, Registers). -/
def uartRegs : List RReg := [
  ⟨0x010, 1, 4, [rw 15 0 54 (.l 0)]⟩,
  ⟨0x014, 1, 4, [rw 1 0 3 (.l 1), rw 4 2 0 (.l 2), rw 5 5 0 (.l 3), rw 6 6 0 (.l 4)]⟩,
  ⟨0x018, 1, 4, [rw 0 0 1, rw 1 1 1, rw 3 2, wo 4 4, wo 5 5]⟩,
  ⟨0x01C, 1, 4, [ro 6 0, ro 14 8, ro 16 16, ro 17 17, ro 18 18 1, w1c 19 19]⟩,
  ⟨0x020, 1, 4, [ro 7 0, ro 8 8, ro 9 9, ro 10 10, ro 11 11, ro 12 12, ro 13 13, ro 31 31]⟩,
  ⟨0x024, 1, 4, [wo 7 0]⟩, ⟨0x028, 1, 4, [w1c 6 0]⟩, ⟨0x02C, 1, 4, [rw 15 0 16, wo 16 16, ro 17 17]⟩,
  ⟨0x030, 1, 4, [ro 15 0]⟩, ⟨0x034, 1, 4, [ro 23 0]⟩, ⟨0x038, 4, 4, cnt⟩]

/-- TALLY (chapter 19, Registers); the staged event is kept per agent (R631). -/
def tallyRegs : List RReg := [
  ⟨0x010, 1, 4, [rw 0 0, wo 1 1]⟩, ⟨0x014, 2, 4, cnt⟩, ⟨0x020, 1, 4, [rw 15 0, rw 23 16]⟩,
  ⟨0x024, 2, 4, word⟩, ⟨0x4000, 4096, 4, cnt⟩, ⟨0x8000, 1024, 4, [ro 7 0, ro 15 8]⟩]

/-- INTEG (chapter 19, Registers). -/
def integRegs : List RReg := [
  ⟨0x010, 1, 4, [rw 0 0 1, wo 1 1]⟩, ⟨0x014, 1, 4, [rw 15 0 60]⟩, ⟨0x018, 1, 4, [rw 15 0 10]⟩,
  ⟨0x020, 6, 4, cnt⟩, ⟨0x040, 4, 4, cnt⟩, ⟨0x050, 1, 4, cnt⟩,
  ⟨0x054, 1, 4, [rw 31 6 0 .q]⟩, ⟨0x058, 1, 4, [rw 7 0 0 .q]⟩,
  ⟨0x05C, 1, 4, [rw 7 0 0 .q, rw 11 8 0 .q, rw 16 12 0 .q, ⟨24, 24, .wo, 0, .q⟩, ro 25 25, ro 26 26, w1c 27 27]⟩,
  ⟨0x060, 1, 4, [rw 7 0, rw 11 8, rw 12 12]⟩, ⟨0x064, 4, 4, cnt⟩, ⟨0x080, 1, 4, [ro 0 0 1, w1s 1 1]⟩,
  ⟨0x084, 1, 4, [wo 7 0, wo 11 8, wo 12 12, wo 23 16, wo 26 24]⟩, ⟨0x088, 1, 4, [ro 7 0]⟩]

/-- MGMT (chapters 20 and 21, Registers). -/
def mgmtRegs : List RReg := [
  ⟨0x010, 1, 4, [ro 2 0, ro 6 4]⟩, ⟨0x014, 1, 4, [rw 0 0]⟩, ⟨0x018, 1, 4, cnt⟩,
  ⟨0x01C, 1, 4, [ro 11 0, ro 12 12, ro 27 16, ro 28 28]⟩, ⟨0x020, 4, 4, [ro 7 0, ro 31 16]⟩,
  ⟨0x030, 1, 4, [ro 23 0, ro 27 24, ro 31 31]⟩, ⟨0x040, 1, 4, [rw 8 0 360]⟩, ⟨0x044, 1, 4, [rw 31 0 0xAAAAAAAA]⟩,
  ⟨0x048, 1, 4, [ro 15 0]⟩, ⟨0x100, 4, 32, [rw 0 0 1, wo 1 1]⟩,
  ⟨0x104, 4, 32, [ro 2 0, ro 6 4 7, ro 8 8, ro 11 9, ro 23 16]⟩, ⟨0x108, 4, 32, [ro 15 0, ro 31 16]⟩,
  ⟨0x10C, 4, 32, cnt⟩, ⟨0x110, 4, 32, [ro 2 0 4, ro 5 3 4, ro 8 6 4, ro 11 9 4, ro 31 16]⟩,
  ⟨0x114, 4, 32, cnt⟩, ⟨0x118, 4, 32, cnt⟩,
  ⟨0x800, 1, 4, [rw 10 0, rw 15 12, rw 17 16, rw 19 18, wo 20 20]⟩,
  ⟨0x804, 1, 4, [ro 0 0, w1c 1 1, ro 15 8, ro 17 16, ro 19 18]⟩, ⟨0x808, 1, 4, [ro 0 0, ro 1 1]⟩,
  ⟨0x80C, 1, 4, cnt⟩, ⟨0x840, 16, 4, word⟩]

/-- TIME (chapter 14, Registers). -/
def timeRegs : List RReg := [
  ⟨0x010, 1, 4, [wo 0 0, w1c 1 1, wo 2 2]⟩, ⟨0x014, 1, 4, word⟩, ⟨0x018, 2, 4, cnt⟩, ⟨0x020, 2, 4, word⟩,
  ⟨0x028, 1, 4, cnt⟩, ⟨0x030, 2, 4, cnt⟩, ⟨0x038, 2, 4, word⟩, ⟨0x040, 1, 4, [rw 7 0 4, rw 8 8, rw 9 9 1]⟩,
  ⟨0x044, 1, 4, cnt⟩]

/-- TILE n (chapters 10 and 12, Registers), with the PEND bits of chapter 10. -/
def tileRegs : List RReg := [
  ⟨0x010, 1, 4, [rw 0 0 1]⟩, ⟨0x014, 1, 4, [ro 0 0, ro 3 1, ro 7 4, ro 8 8, ro 9 9]⟩,
  ⟨0x018, 1, 4, [rw 15 0, rw 18 16]⟩,
  ⟨0x01C, 2, 4, [rov 2 0 1, rov 6 4 1, rov 10 8 1, rov 14 12 1, rov 18 16 1, rov 22 20 1, rov 26 24 1, rov 30 28 1]⟩,
  ⟨0x024, 4, 4, [rw 3 0 0 .q, rw 6 4 0 .q, rw 7 7 0 .q]⟩, ⟨0x034, 1, 4, [rw 15 0, rw 31 16]⟩,
  ⟨0x038, 1, 4, [wo 0 0, wo 1 1]⟩, ⟨0x03C, 2, 4, cnt⟩, ⟨0x044, 1, 4, [rw 15 0 100, rw 16 16 1]⟩,
  ⟨0x048, 1, 4, [rw 19 0 100000 (.l 0)]⟩, ⟨0x04C, 1, 4, [rw 19 0 100000 (.l 1)]⟩,
  ⟨0x050, 1, 4, [rw 23 0 0x5A5A5A (.l 2)]⟩, ⟨0x054, 1, 4, cnt⟩,
  ⟨0x058, 1, 4, [ro 19 0, ro 22 20, ro 26 23, ro 27 27, w1c 31 31]⟩, ⟨0x05C, 1, 4, cnt⟩,
  ⟨0x100, 1, 4, [wo 0 0, wo 1 1, wo 2 2, rw 3 3 0 (.l 10), rw 5 4 0 (.l 11)]⟩,
  ⟨0x104, 1, 4, [ro 2 0, ro 15 4]⟩, ⟨0x108, 1, 4, [rw 31 0 0 (.l 3)]⟩, ⟨0x10C, 1, 4, [rw 15 0 0 (.l 3)]⟩,
  ⟨0x110, 2, 4, [rw 31 0 0 (.l 4)]⟩, ⟨0x118, 2, 4, [rw 31 0 0 (.l 5)]⟩, ⟨0x120, 2, 4, [rw 31 0 0 (.l 6)]⟩,
  ⟨0x128, 2, 4, [rw 31 0 0 (.l 7)]⟩, ⟨0x130, 1, 4, [rw 15 0 0 (.l 8), rw 23 16 0 (.l 8), rw 31 24 0 (.l 8)]⟩,
  ⟨0x134, 1, 4, [rw 7 0 0 (.l 9)]⟩, ⟨0x140, 1, 4, [w1s 31 0]⟩, ⟨0x144, 1, 4, [w1s 23 0, ro 31 28 15]⟩,
  ⟨0x148, 1, 4, [wo 31 0]⟩, ⟨0x14C, 1, 4, [wo 23 0]⟩, ⟨0x180, 1, 4, [rw 6 0, rw 13 8]⟩,
  ⟨0x184, 2, 4, [rw 31 0 0 .q]⟩,
  ⟨0x400, 8, 16, [rw 19 0 0 .q]⟩, ⟨0x404, 8, 16, [rw 3 0 1 .q, rw 4 4 0 .q]⟩, ⟨0x408, 8, 16, cnt⟩,
  ⟨0x40C, 8, 16, cnt⟩, ⟨0x480, 1, 4, cnt⟩, ⟨0x484, 1, 4, [wo 7 0, wo 15 8]⟩,
  ⟨0x488, 1, 4, [ro 2 0, ro 15 8, w1c 31 31]⟩, ⟨0x48C, 1, 4, cnt⟩, ⟨0x490, 1, 4, [ro 15 0]⟩, ⟨0x4C0, 16, 4, word⟩]

/-- MESH (chapter 12, Registers). -/
def meshRegs : List RReg := [⟨0x010, 1, 4, cnt⟩, ⟨0x014, 1, 4, [ro 7 0, ro 10 8, w1c 31 31]⟩]

/-- YARDER k (chapter 13, Registers). -/
def yarderRegs : List RReg := [
  ⟨0x010, 1, 4, [rw 0 0 1, rw 1 1 0 .q, rw 2 2, wo 3 3, wo 4 4]⟩, ⟨0x014, 1, 4, [ro 2 0, ro 3 3, ro 11 4]⟩,
  ⟨0x018, 1, 4, cnt⟩, ⟨0x01C, 2, 4, cnt⟩, ⟨0x024, 1, 4, [ro 15 0]⟩, ⟨0x028, 2, 4, [ro 11 0, ro 27 16]⟩,
  ⟨0x030, 5, 4, cnt⟩, ⟨0x044, 1, 4, [ro 7 0, ro 15 8, ro 23 16]⟩]

/-- YFAB (chapter 13, Registers). -/
def yfabRegs : List RReg := [
  ⟨0x010, 1, 4, [rw 13 0 100]⟩, ⟨0x100, 256, 4, [ro 6 0]⟩, ⟨0x500, 256, 4, [rw 7 0 0xFF]⟩,
  ⟨0x1000, 256, 32, [rwv 31 6]⟩, ⟨0x1004, 256, 32, [rwv 7 0]⟩, ⟨0x1008, 256, 32, [rwv 14 0]⟩,
  ⟨0x100C, 256, 32, [rwv 0 0, rw 1 1, rw 3 2]⟩, ⟨0x1010, 256, 32, word⟩, ⟨0x1014, 256, 32, word⟩,
  ⟨0x1018, 256, 32, [ro 1 0, w1c 2 2]⟩, ⟨0x101C, 256, 32, cnt⟩]

/-- HBM i (chapter 11, Registers). -/
def hbmRegs : List RReg := [
  ⟨0x010, 1, 4, [rw 1 0 0 .q, rw 4 4, rw 8 8 1, wo 9 9, wo 10 10]⟩,
  ⟨0x014, 1, 4, [ro 0 0, ro 1 1, ro 2 2, ro 3 3, ro 4 4, ro 9 8]⟩, ⟨0x018, 1, 4, [rw 1 0 0 .q]⟩, ⟨0x01C, 2, 4, cnt⟩,
  ⟨0x024, 1, 4, [ro 7 0, ro 8 8]⟩, ⟨0x028, 1, 4, [rw 7 0 24]⟩, ⟨0x02C, 2, 4, cnt⟩, ⟨0x034, 1, 4, cnt⟩,
  ⟨0x038, 1, 4, [ro 7 0, w1c 31 31]⟩, ⟨0x03C, 1, 4, [ro 3 0]⟩]

/-- The five registers of a Landing ring of six MACs, at `o`. -/
def ringRegs (o : Nat) : List RReg := [
  ⟨o, 6, 64, [rw 31 0 0 .q]⟩, ⟨o + 4, 6, 64, [rw 7 0 0 .q]⟩, ⟨o + 8, 6, 64, [rw 3 0 4 .q]⟩,
  ⟨o + 0xC, 6, 64, [ro 11 0]⟩, ⟨o + 0x10, 6, 64, [rw 11 0]⟩]

/-- LANDING (chapter 14, Registers). -/
def landingRegs : List RReg := [
  ⟨0x010, 1, 4, [rw 15 0 0xC000]⟩, ⟨0x014, 1, 4, [ro 13 0, ro 29 16]⟩, ⟨0x018, 1, 4, cnt⟩,
  ⟨0x100, 6, 32, [rw 0 0 0 .q, rw 1 1, rw 4 2]⟩, ⟨0x104, 6, 32, [ro 0 0, ro 2 1]⟩, ⟨0x108, 6, 32, [rw 15 0]⟩,
  ⟨0x10C, 6, 32, cnt⟩, ⟨0x110, 6, 32, cnt⟩] ++ ringRegs 0x200 ++ ringRegs 0x220 ++ [
  ⟨0x1000, 64, 64, [rw 0 0, rw 2 1 0 .lInst, rw 3 3 0 .lInst, rw 4 4 0 .lInst, rw 11 8 4 .lInst, rw 21 16 1 .lInst,
    rw 31 24 0 .lInst]⟩,
  ⟨0x1004, 64, 64, [rw 31 0 0 .lInst]⟩, ⟨0x1008, 64, 64, [rw 15 0 0 .lInst, rw 31 16 0 .lInst]⟩,
  ⟨0x100C, 64, 64, [rw 13 0 8192 .lInst]⟩, ⟨0x1010, 64, 64, [rw 23 0 0 .lInst]⟩,
  ⟨0x1014, 64, 64, [rw 31 12 0 .lInst]⟩, ⟨0x1018, 64, 64, [rw 7 0 0 .lInst]⟩, ⟨0x101C, 64, 64, [rw 19 0 0 .lInst]⟩,
  ⟨0x1020, 64, 64, [rw 31 6 0 .lInst]⟩, ⟨0x1024, 64, 64, [rw 7 0 0 .lInst]⟩,
  ⟨0x1028, 64, 64, [rw 15 0 500 .lInst, rw 31 16 0 .lInst]⟩, ⟨0x102C, 64, 64, word⟩,
  ⟨0x1030, 64, 64, [ro 1 0, ro 14 8, ro 22 16]⟩, ⟨0x1034, 64, 64, cnt⟩, ⟨0x1038, 64, 64, cnt⟩,
  ⟨0x103C, 64, 64, [ro 15 0, ro 31 16]⟩]

/-- RANGER (chapter 15, Registers). -/
def rangerRegs : List RReg := [
  ⟨0x010, 1, 4, [rw 3 0, rw 4 4, rw 5 5]⟩, ⟨0x100, 4, 0x40, [rw 31 0 0x00100000]⟩, ⟨0x104, 4, 0x40, [rw 15 0 0x1E]⟩,
  ⟨0x108, 4, 0x40, [w1s 31 0]⟩, ⟨0x10C, 4, 0x40, [w1s 23 0, ro 24 24]⟩, ⟨0x110, 4, 0x40, [wo 31 0]⟩,
  ⟨0x114, 4, 0x40, [wo 23 0]⟩, ⟨0x118, 4, 0x40, [ro 7 0, ro 10 8, ro 31 31]⟩,
  ⟨0x11C, 4, 0x40, [ro 0 0, ro 1 1, ro 2 2 1]⟩]

/-- CHOKER (chapter 12, Registers). -/
def chokerRegs : List RReg := [
  ⟨0x010, 1, 4, [ro 17 0 131072]⟩, ⟨0x014, 1, 4, [ro 17 0]⟩, ⟨0x018, 2, 4, cnt⟩, ⟨0x020, 1, 4, [ro 10 0, ro 26 16]⟩,
  ⟨0x100, 144, 4, [rw 16 0 896]⟩, ⟨0x400, 144, 4, [ro 16 0]⟩, ⟨0x800, 144, 4, [ro 16 0]⟩, ⟨0xC00, 144, 4, cnt⟩]

/-- The common header of Table 3-5; BLK_ID depends on the block and is read by `regReset`. -/
def headerRegs : List RReg := [
  ⟨0x004, 1, 4, [w1c 0 0, ro 1 1 1, ro 2 2, w1c 3 3, ro 30 8]⟩, ⟨0x008, 2, 4, cnt⟩]

/-- Every register table row of a block, the common header first. -/
def Blk.regs : Blk → List RReg
  | .chip => headerRegs ++ chipRegs | .clk => headerRegs ++ clkRegs | .pwr => headerRegs ++ pwrRegs
  | .therm => headerRegs ++ thermRegs | .pins => headerRegs ++ pinsRegs | .uart => headerRegs ++ uartRegs
  | .tally => headerRegs ++ tallyRegs | .integ => headerRegs ++ integRegs | .mgmt => headerRegs ++ mgmtRegs
  | .time => headerRegs ++ timeRegs | .tile => headerRegs ++ tileRegs | .mesh => headerRegs ++ meshRegs
  | .yarder => headerRegs ++ yarderRegs | .yfab => headerRegs ++ yfabRegs | .hbm => headerRegs ++ hbmRegs
  | .landing => headerRegs ++ landingRegs | .ranger => headerRegs ++ rangerRegs | .choker => headerRegs ++ chokerRegs

/-- Whether the row holds a register at offset `rel`. -/
def RReg.has (r : RReg) (rel : Nat) : Bool :=
  decide (r.off ≤ rel) && decide ((rel - r.off) % r.stride = 0) && decide ((rel - r.off) / r.stride < r.n)

/-- The fields of the register at a location; none where the block has no register there (R92). -/
def Loc.fields (l : Loc) : List RField :=
  match l.blk.regs.find? (fun r => r.has l.rel) with
  | some r => r.fields
  | none => []

/-- The index of the register within its row, as an array register has it. -/
def Loc.index (l : Loc) : Nat :=
  match l.blk.regs.find? (fun r => r.has l.rel) with
  | some r => (l.rel - r.off) / r.stride
  | none => 0

/-- The word that a list of fields takes at reset. -/
def resetWord (fs : List RField) : Word :=
  fs.foldl (fun w f => setFld w f.hi f.lo f.reset) 0

/-- The reset value of the register at an offset, as the register tables give it; 0 where there is none. -/
def regReset (off : Nat) : Word :=
  match locate off with
  | none => 0
  | some l => if l.rel = 0 then BitVec.ofNat 32 (l.blk.kind + 2 ^ 16 * l.inst) else resetWord l.fields

/-- The bits of a register that a predicate on its fields picks. -/
def fieldMask (fs : List RField) (p : RField → Bool) : Word :=
  fs.foldl (fun w f => if p f then setFld w f.hi f.lo (2 ^ (f.hi + 1 - f.lo) - 1) else w) 0

end Sys2Proof.Machine
end

