-- ==== Sys2Proof/Machine/Store.lean ====
section
/-! DEFINITION. The sparse store used for every memory, register space and table of the state: reading, writing and
the canonical form. An unlisted key reads as the default `d`. -/

namespace Sys2Proof

/-- What key `k` reads as in the store `m`, `d` where it is not listed. -/
def SMap.get {α : Type} (d : α) : SMap α → Nat → α
  | [], _ => d
  | (k', v) :: m, k => if k = k' then v else SMap.get d m k

/-- The store without key `k`. -/
def SMap.drop {α : Type} : SMap α → Nat → SMap α
  | [], _ => []
  | (k', v) :: m, k => if k = k' then SMap.drop m k else (k', v) :: SMap.drop m k

/-- The store with the pair of a key that it does not list put in its place in the rising order. -/
def SMap.put {α : Type} : SMap α → Nat → α → SMap α
  | [], k, v => [(k, v)]
  | (k', v') :: m, k, v => if k < k' then (k, v) :: (k', v') :: m else (k', v') :: SMap.put m k v

/-- Write `v` at key `k`; writing the default removes the entry. -/
def SMap.set {α : Type} [DecidableEq α] (d : α) (m : SMap α) (k : Nat) (v : α) : SMap α :=
  if v = d then m.drop k else (m.drop k).put k v

/-- The keys of the store rise strictly. -/
def SMap.rising {α : Type} : SMap α → Bool
  | [] => true
  | [_] => true
  | (k, _) :: (k', v') :: m => decide (k < k') && SMap.rising ((k', v') :: m)

/-- The canonical form: keys rising, no entry equal to the default. -/
def SMap.wf {α : Type} [DecidableEq α] (d : α) (m : SMap α) : Bool :=
  m.rising && m.all (fun p => decide (p.2 ≠ d))

/-- The canonical form of a memory: rising addresses, and no byte listed that reads so unlisted. -/
abbrev Memory.wf (d : Byte) (m : SMap Byte) : Bool := m.wf d

/-- Forget every key in `[lo, lo + n)`: those keys read as the default again. -/
def SMap.clear {α : Type} (m : SMap α) (lo n : Nat) : SMap α :=
  m.filter (fun p => decide (p.1 < lo ∨ lo + n ≤ p.1))

/-- Write the list of values at consecutive keys from `k`. -/
def SMap.setMany {α : Type} [DecidableEq α] (d : α) (m : SMap α) (k : Nat) : List α → SMap α
  | [] => m
  | v :: vs => SMap.setMany d (m.set d k v) (k + 1) vs

/-- Read `n` values at consecutive keys from `k`. -/
def SMap.getMany {α : Type} (d : α) (m : SMap α) (k n : Nat) : List α :=
  (List.range n).map (fun i => m.get d (k + i))

end Sys2Proof
end

