-- ==== Sys2Proof/Machine/State.lean ====
section
/-! DEFINITION. The state of one chip, its island and the tray functions that its island serves, as plain data;
`State.reset` is the chip right after power-on reset. -/

namespace Sys2Proof.Machine
open Sys2Proof

/-- Why the block stops.  No rule of the spec stops the chip itself: a fault is an access of the model to a thing the
spec says does not exist. -/
inductive Fault where
  /-- A command names a thing the spec gives no existence on this chip.  Raised by no meaning in this version.
  Safe: the model stops where the chip has nothing to do. -/
  | noSuchThing
  deriving DecidableEq, Repr

/-- Why a command has no meaning. -/
inductive Refusal where
  /-- The command's row is not modelled yet.  Safe: the model stops. -/
  | notModelled (mnemonic : String)
  deriving DecidableEq, Repr

/-! ### Cores (chapter 04) -/

/-- Task states, Table 4-1. -/
inductive TaskState where
  | idle | running | draining | halted | stopped
  deriving DecidableEq, Repr

/-- Where the data of a load or full/empty read goes. -/
inductive Dst where
  /-- scalar `rd` from `bytes` bytes, sign-extended or not -/
  | scalar (rd : BitVec 5) (bytes : Nat) (signed : Bool)
  /-- 64 elements of v[`vd`] under mask `m` -/
  | vector (vd : BitVec 5) (m : Dword)
  /-- elements 0 to 15 of v[`vd`] -/
  | slotV (vd : BitVec 5)
  /-- FE.PEEK: data to a vector (`false`) or scalar (`true`) register and the tag to s[`tagRd`] -/
  | peek (scalar : Bool) (rd tagRd : BitVec 5)
  /-- a request that returns no data (FE.WRITE, FE.SET, FE.CLEAR) -/
  | none
  deriving DecidableEq, Repr

/-- What a core needs lines of its tile's cache for: a load of some bytes, a store of runs of bytes at offsets, or the fetch
of an instruction line. -/
inductive Goal where
  | load (len : Nat) (dst : Dst)
  | store (segs : List (Nat × List Byte))
  | fetch
  deriving DecidableEq, Repr

/-- An access of a core that its tile's cache serves once its lines are filled: the address as issued, the local HBM address,
the lines it touches, the tag of the fill under way, and lines whose fill was poisoned, which a store writes in HBM. -/
structure Fill where
  addr : Nat
  loc : Nat
  goal : Goal
  lines : List Nat
  tag : Option Nat := none
  raw : List Nat := []
  deriving DecidableEq, Repr

/-- What a core waits for: an issued instruction, or the fetch of one. -/
inductive Wait where
  | none
  /-- the response to the load with this Choker tag, from an address, for its destination -/
  | resp (tag : Nat) (addr : Nat) (dst : Dst)
  /-- lines of its tile's cache (R342) -/
  | fill (job : Fill)
  /-- the line of an instruction fetch, by the transaction with this tag; the instruction is issued anew -/
  | fetch (line tag : Nat)
  /-- FE.READ (`write` none) or FE.WRITE held or refused at a slot, with the limit in µs sampled at its start (R346) -/
  | fe (addr : Nat) (write : Option (List Byte)) (dst : Dst) (tag : Option Nat) (refused : Bool) (limit : Nat)
  | bar (b : Nat) (limit : Nat)
  | waitev (mask : Dword) (all : Bool) (rd : BitVec 5) (limit : Nat)
  | dmaWait (q : Nat) (target : Word) (limit : Nat)
  | yield (k : Nat)
  /-- a load of a TILE register that waits behind the core's own writes (R81) -/
  | reg
  deriving DecidableEq, Repr

/-- A reported deferred exception (R119). -/
structure Deferred where
  code : Nat
  engine : Nat
  unit : Nat
  tval : Dword
  deriving DecidableEq, Repr

/-- One core: the architectural registers of Table 4-2 and what the sequencer holds.  s0 and m0 have no storage. -/
structure Core where
  pc : Dword := 0
  s : SMap Dword := []
  /-- the runtime-mode copy of s2 on a Ranger core (R101); `s` holds the task-mode copy -/
  s2rt : Dword := 0
  v : SMap (BitVec 2048) := []
  m : SMap Dword := []
  status : Dword := 0
  cause : Dword := 0
  epc : Dword := 0
  tval : Dword := 0
  phase : Dword := 0
  taskid : Dword := 0
  task : TaskState := .idle
  /-- a Ranger core halted by R130 -/
  halted : Bool := false
  wait : Wait := .none
  /-- deferred exceptions reported and not yet taken -/
  deferred : List Deferred := []
  /-- a STOP waits for the instruction boundary (R117) -/
  stopReq : Bool := false
  /-- addresses of the 64-byte lines in the 16 KiB instruction cache, most recently used first -/
  icache : List Nat := []
  /-- the core's clock cycle at which `cycle` was 0 -/
  cycle0 : Nat := 0
  /-- the instruction at `pc` waits on a full quota and has been counted (R395) -/
  quotaWait : Bool := false
  deriving DecidableEq, Repr

/-! ### Protected words (R320, R363, R611) -/

/-- The state of a word's SECDED codes: which 64-bit lanes hold one flipped bit, whether some lane holds an
uncorrectable error, and whether the word carries the poison pattern. -/
structure WMark where
  ones : BitVec 8 := 0
  ue : Bool := false
  /-- the lanes that make it uncorrectable -/
  bad : BitVec 8 := 0
  poison : Bool := false
  deriving DecidableEq, Repr

/-! ### Transactions that hold a Choker tag (chapters 10, 12, 13) -/

/-- What a request asks of its target. -/
inductive TOp where
  | read (len : Nat)
  /-- runs of bytes at offsets from the address -/
  | write (segs : List (Nat × List Byte))
  /-- FE.READ, of form .S or .V; FE.WRITE, FE.PEEK, FE.SET and FE.CLEAR -/
  | feRead (scalar : Bool) | feWrite (data : List Byte) | fePeek | feSet | feClear
  deriving DecidableEq, Repr

/-- Who waits for the response: the sequencer's blocking access, its posted store, a Skidder queue, the tile's Bucker (kind
0), Chipper (kind 1) or Feeder (kind 2), the instruction cache of a core, a line of the tile's cache filled or written back,
or Landing. -/
inductive Origin where
  | load | store | skid (q : Nat) | engine (kind : Nat) | fetch | fill | evict | landing
  deriving DecidableEq, Repr

/-- A response (R331, R396, Table 13-5). -/
inductive Resp where
  | data (bytes : List Byte) (poison full : Bool)
  | ack
  /-- a refusal, with the exception cause it stands for -/
  | refused (cause : Nat)
  /-- FULL or EMPTY: the requester retries (R196) -/
  | retry
  deriving DecidableEq, Repr

/-- Where a transaction stands. -/
inductive TxnState where
  | sent | held | answered (r : Resp) | lost
  deriving DecidableEq, Repr

/-- An outstanding transaction. -/
structure Txn where
  agent : Nat
  origin : Origin
  /-- 48-bit global address -/
  addr : Nat
  op : TOp
  /-- the data written is poisoned -/
  poison : Bool := false
  /-- the address as its requester gave it -/
  asked : Nat := 0
  st : TxnState := .sent
  orphan : Bool := false
  /-- its tag has been freed by expiry or cancel, while its request or response may still be on its way (R396 to R398) -/
  freed : Bool := false
  /-- its target has answered that it holds the request, which stops the expiry of the tag (R397) -/
  noticed : Bool := false
  /-- its request has left the mesh for another chip; the packets of it not answered yet, the data of those answered, whether
  some was poisoned, and the first refusal -/
  out : Bool := false
  left : Nat := 1
  buf : List Byte := []
  pois : Bool := false
  bad : Option Nat := none
  born : Nat := 0
  /-- order of issue among all transactions -/
  ord : Nat := 0
  /-- mesh router the request or the response stands at -/
  node : Nat := 0
  deriving DecidableEq, Repr

/-! ### The engines of a tile (chapters 06 to 09, 12) -/

/-- Progress of an MRUN in one selected macro. -/
structure MacProg where
  /-- passes done, in the order of R237 -/
  done : Nat := 0
  /-- the pass at `done` waits for a golden-copy restore (R249), requested at this time in ns -/
  hold : Option Nat := none
  /-- the pass at `done` mismatched twice and was held for a restore, so that a further mismatch fails (R250) -/
  restored : Bool := false
  /-- the remaining passes are abandoned -/
  abandoned : Bool := false
  deriving DecidableEq, Repr

/-- A finished pass that waits for its place in the logical order (R288): pass value per channel, or poisoned. -/
structure DonePass where
  vec : Nat
  k : Nat
  rank : Nat
  vals : List Word
  /-- the address of the first poisoned input word -/
  poison : Option Nat
  deriving DecidableEq, Repr

/-- A dispatched Feeder operation. -/
inductive FKind where
  | mload (desc : List Byte)
  | mrun (desc : List Byte)
  | mscrub (mac rg : Nat)
  deriving DecidableEq, Repr

/-- An entry of the Feeder queue, with its issue number and the address of its descriptor. -/
structure FOp where
  seq : Nat
  addr : Dword
  kind : FKind
  started : Bool := false
  prog : SMap MacProg := []
  done : List DonePass := []
  /-- how many passes, in logical order, the Bucker has applied or passed over -/
  next : Nat := 0
  /-- its read of HBM has been counted as one that waits on a full quota -/
  quota : Bool := false
  /-- the reads of HBM that an MLOAD has made, in order (none: poisoned or refused), and the tag of the one under way -/
  reads : List (Option (List Byte)) := []
  tag : Option Nat := none
  deriving DecidableEq, Repr

/-- A Bucker operation. -/
inductive BKind where
  | open (desc : List Byte)
  /-- with the QOUT descriptor read at QDESC for DEST 2 -/
  | close (desc : List Byte) (qdesc : List Byte)
  | flush (grp : Nat)
  | stat (desc : List Byte)
  deriving DecidableEq, Repr

/-- A piece of an engine's output, within one 64-byte word: plain, with full/empty semantics, or only a tag set. -/
inductive How where
  | plain | fe | tag
  deriving DecidableEq, Repr

structure Piece where
  addr : Nat
  bytes : List Byte
  poison : Bool
  how : How
  /-- it has been counted as one that waits on a full quota -/
  quota : Bool := false
  /-- non-finite values in it -/
  nf : Nat := 0
  deriving DecidableEq, Repr

structure BOp where
  seq : Nat
  addr : Dword
  kind : BKind
  /-- the operation has started; the next row (or statistics group), and the pieces of rows before it still to write -/
  started : Bool := false
  row : Nat := 0
  out : List Piece := []
  /-- values handed over so far (DEST 2) -/
  values : List (Word × Option Nat) := []
  /-- non-finite values written so far, and the first poisoned input word -/
  nonfinite : Nat := 0
  poisonAt : Option Nat := none
  /-- tag of the one outstanding write that leaves the tile -/
  tag : Option Nat := none
  deriving DecidableEq, Repr

/-- A Chipper operation: the QOUT descriptor, and for a close with DEST 2 the values handed over (`none` until then),
each with the poisoned word that marks it. -/
structure COp where
  seq : Nat
  addr : Dword
  desc : List Byte
  fromClose : Bool := false
  values : Option (List (Word × Option Nat)) := none
  /-- as for a Bucker operation; `late` holds the scale-plane pieces, written after the data plane -/
  row : Nat := 0
  out : List Piece := []
  late : List Piece := []
  lateDone : Bool := false
  /-- the pieces of a data-plane word under SETFULL 1 that later rows may still add to -/
  part : List Piece := []
  sats : Nat := 0
  poisonAt : Option Nat := none
  tag : Option Nat := none
  deriving DecidableEq, Repr

/-- A background SP.FILL or SP.COPY (R193): offsets in the own scratchpad; `copy` is the source and the tag mode. -/
structure SpOp where
  dst : Nat
  len : Nat
  fill : Word
  copy : Option (Nat × Nat)
  deriving DecidableEq, Repr

/-- An accumulation group (R189, R284). -/
structure Grp where
  isOpen : Bool := false
  depth : Nat := 0
  fp24 : Bool := false
  nelem : Nat := 0
  wbase : Nat := 0
  deriving DecidableEq, Repr

/-- An activation codebook slot (R262, R263). -/
structure Slot where
  loaded : Bool := false
  width : Nat := 0
  qmax : Nat := 0
  entries : List (BitVec 16) := []
  deriving DecidableEq, Repr

/-- An entry of the gather buffer (R335): the bank word it holds and its bytes. -/
structure GbEntry where
  word : Nat
  data : List Byte
  valid : BitVec 64
  dirty : BitVec 64
  deriving DecidableEq, Repr

/-- A full/empty waiter held at a target tile (R196). -/
structure Waiter where
  agent : Nat
  origin : Origin
  /-- bank word of the tile -/
  word : Nat
  write : Option (List Byte)
  tag : Option Nat
  /-- the data it writes is poisoned -/
  poison : Bool := false
  deriving DecidableEq, Repr

/-- A cache line (R341): HBM line address, data, dirty; its set is a function of the address. -/
structure Line where
  line : Nat
  data : List Byte
  dirty : Bool
  deriving DecidableEq, Repr

/-- A register access that waits at a TILE block, which has not taken effect (R65, R80, R81, R332, R527): its agent, the
register's offset in the block, the word written (none: a read), for an access by alias the bit, and for a load of a core
its address and destination. -/
structure RegAcc where
  agent : Agent
  rel : Nat
  write : Option Word
  bit : Option Nat := none
  load : Option (Nat × Dst) := none
  deriving DecidableEq, Repr

/-- A handover in progress (R332): banks and new owner as written, the old owners of the banks that change hands, and what
came before it: engine operations, transactions, and the running descriptors (queue and completion count). -/
structure Handover where
  word : Word
  started : Bool := false
  olds : List Nat := []
  seq : Nat := 0
  ord : Nat := 0
  skids : List (Nat × Word) := []
  deriving DecidableEq, Repr

/-- A Skidder queue beyond its registers. -/
structure Skq where
  halted : Bool := false
  /-- the descriptor at the head has started, at this time in ns -/
  started : Option Nat := none
  desc : List Byte := []
  /-- its gate has been passed -/
  gated : Bool := false
  /-- the element at work, bytes of it moved, bytes of the unit read, whether all of them are, and bytes of it written -/
  elem : Nat := 0
  off : Nat := 0
  /-- the index that a GATHER has read for the element -/
  idx : Option Nat := none
  buf : List Byte := []
  haveBuf : Bool := false
  wdone : Nat := 0
  /-- the tag completion is done -/
  tagged : Bool := false
  /-- waiting at a slot, or for the response with this tag -/
  wait : Option (Option Nat) := none
  /-- the address of the request that waits or failed -/
  at' : Nat := 0
  /-- what the request that waited was answered -/
  got : Option (List Byte × Bool) := none
  /-- refused with FULL or EMPTY, to be retried -/
  retry : Bool := false
  /-- its request has been counted as one that waits on a full quota -/
  quota : Bool := false
  deriving DecidableEq, Repr

/-- One tile beyond its registers. -/
structure Tile where
  core : Core := {}
  /-- how the task ends when DRAINING completes: HALTED with this exit code, or STOPPED -/
  exit : Option (BitVec 12) := none
  /-- NOTIFY and the descriptor-check of the running task were latched at launch -/
  notify : BitVec 2 := 0
  feeder : List FOp := []
  /-- MLOADs that run in their macro or slot -/
  loads : List FOp := []
  bucker : List BOp := []
  chipper : List COp := []
  spop : Option SpOp := none
  issue : Nat := 0
  groups : SMap Grp := []
  /-- NELEM of the latest ACC.OPEN issued for each group (R190) -/
  issuedNelem : SMap Nat := []
  words : SMap Word := []
  passIdx : SMap Nat := []
  /-- poison marks of elements, by group * 16384 + element: the first poisoned input word -/
  epoison : SMap (Option Nat) := []
  lfsr : BitVec 24 := 0x5A5A5A
  cb : SMap Slot := []
  gb : List GbEntry := []
  waiters : List Waiter := []
  lines : SMap (Option Line) := []
  plru : SMap (BitVec 3) := []
  handovers : List Handover := []
  skq : SMap Skq := []
  /-- the queue that the Skidder's round-robin serves next (R390) -/
  skNext : Nat := 0
  scrubPtr : Nat := 0
  mscrubPtr : Nat := 0
  /-- restore requests made and neither restored nor timed out: macro * 32 + row-group -/
  restores : List Nat := []
  noticeHeld : List Nat := []
  /-- when the tile last became IDLE or HALTED -/
  idleSince : Nat := 0
  waking : Bool := false
  /-- what TILE_CACHE_CTRL started: write back, invalidate (R343) -/
  maint : Bool × Bool := (false, false)
  /-- writes to the TILE block held while the tile is gated, GO among them (R526, R527), in order of arrival -/
  heldWrites : List RegAcc := []
  /-- accesses to the TILE block that are outstanding (R65): TILE_OWNER writes behind a handover (R332), and what their agents
  sent after them (R80, R81), in order of arrival -/
  regQ : List RegAcc := []
  deriving DecidableEq, Repr

/-- What MLOAD records of a row-group (R185): W (0: none), NCH, group size code, and the scale table when loaded. -/
structure RgRec where
  w : Nat := 0
  nch : Nat := 0
  group : Nat := 0
  scales : Option (List (BitVec 16)) := none
  deriving DecidableEq, Repr

/-- The four counts of a macro (R618). -/
structure MacCnt where
  corr : BitVec 16 := 0
  fail : BitVec 16 := 0
  ce : BitVec 16 := 0
  ue : BitVec 16 := 0
  deriving DecidableEq, Repr

/-- A restore request (R619). -/
structure RstReq where
  tile : Nat
  mac : Nat
  rg : Nat
  lost : Bool
  deriving DecidableEq, Repr

/-- The restore in progress (R620): target, source address in HBM, the tag of the target tile's read of the golden copy, and
what it gave (none: poisoned or refused). -/
structure Restore where
  req : RstReq
  src : Nat
  tag : Option Nat := none
  got : Option (Option (List Byte)) := none
  deriving DecidableEq, Repr

/-- An error log entry (R622): the words LOG0, LOG1 and LOG2. -/
structure LogEntry where
  l0 : Word
  l1 : Word
  l2 : Word
  deriving DecidableEq, Repr

/-- A Tally record with its origin word (R629). -/
structure TallyRec where
  time : BitVec 48 := 0
  code : BitVec 16 := 0
  detail : Dword := 0
  chip : Byte := 0
  src : Byte := 0
  deriving DecidableEq, Repr

/-- When a rate-limited event was last raised, and the occurrences since (R758). -/
structure Limit where
  last : Option Nat := none
  since : Nat := 0
  deriving DecidableEq, Repr

/-- An HBM controller beyond its registers. -/
structure HbmCtl where
  /-- 0 off, 1 bring-up, 2 training, 3 ECC initialisation, 4 ready -/
  phase : Nat := 0
  /-- a self-refresh entry (`true`) or exit (`false`) in progress -/
  seq : Option Bool := none
  hourCe : Nat := 0
  patrolPtr : Nat := 0
  rfm : Nat := 0
  /-- activates per bank: pseudo-channel * 64 + SID * 16 + bank group * 4 + bank -/
  acts : SMap Nat := []
  deriving DecidableEq, Repr


/-! ### Yarder links and windows (chapter 13) -/

/-- A DATA flit in the retry buffer; the packets whose last byte it carries, as they stood before coalescing. -/
structure TxFlit where
  seq : Nat
  payload : List Byte
  packets : List Packet
  deriving DecidableEq, Repr

/-- The failover of a link that has left UP, while it is pending (R431): since when, the partner, the flits in the retry buffer,
and the packets of its flows that wait. -/
structure Failover where
  since : Nat
  peer : HelloWord
  retry : List TxFlit
  txq : List Packet
  deriving DecidableEq, Repr

/-- A Yarder link beyond its registers (chapter 13). -/
structure Link where
  /-- packets that wait to be sent -/
  txq : List Packet := []
  retry : List TxFlit := []
  /-- SEQ of the next DATA flit sent, and of the next one expected -/
  txSeq : Nat := 0
  rxSeq : Nat := 0
  /-- a DATA flit has been accepted -/
  rxAny : Bool := false
  /-- the beginning of a packet that continues in the next DATA flit -/
  rxBuf : List Byte := []
  /-- the partner's HELLO; and the round trip in NCLK cycles once its HELLO_ACK has come -/
  partner : Option HelloWord := none
  acked : Option Nat := none
  /-- failed trainings, and whether the link has fallen back (R447) -/
  fails : Nat := 0
  slow : Bool := false
  /-- resends of the oldest flit (R430) -/
  resent : Nat := 0
  /-- the second that is counted, and the replays in it (R444) -/
  replaySec : Nat := 0
  replays : Nat := 0
  /-- the failover that is pending since the link left UP; and whether the link retrains in the background -/
  lost : Option Failover := none
  retrain : Bool := false
  /-- the Choker tags that each bulk ID replaced (R423) -/
  bulk : SMap (List Nat) := []
  deriving DecidableEq, Repr

/-- A CLOSE_NOTE that waits for marked tags: the chip and window it came from, and the tags still held (R438). -/
structure NoteWait where
  chip : Nat
  win : Nat
  tags : List Nat
  deriving DecidableEq, Repr

/-! ### Landing (chapter 14) -/

/-- A payload packet in staging (R461): stream, block, local address and bytes, and the tag of its write once it has one. -/
structure Staged where
  strm : Nat
  block : Nat
  addr : Nat
  data : List Byte
  tag : Option Nat := none
  deriving DecidableEq, Repr

/-- A frame of a stream: in assembly, or complete and READY; its buffer, and where that lies. -/
structure Frm where
  buf : Nat := 0
  addr : Nat := 0
  block : Nat := 0
  pixfmt : Word := 0
  tFirst : Nat := 0
  dFirst : Dword := 0
  tLast : Nat := 0
  dLast : Dword := 0
  /-- FLAGS of Table 14-2 -/
  flags : BitVec 16 := 0
  length : Nat := 0
  /-- payload packets stored, by packet ID; and those that came with a status and no payload (R456) -/
  got : SMap Bool := []
  noResend : SMap Bool := []
  /-- highest packet ID received, and the trailer's -/
  highest : Nat := 0
  trailer : Option Nat := none
  /-- the packet that carried fewer than PKTBYTES, which must stay the highest (R460) -/
  short : Option Nat := none
  requests : Nat := 0
  deriving DecidableEq, Repr

/-- A stream beyond its entry's registers. -/
structure Strm where
  asm : Option Frm := none
  /-- READY frames, the one that completed first at the head -/
  ready : List Frm := []
  /-- DELIVERED frames: SEQ and buffer -/
  held : List (Nat × Nat) := []
  /-- the block whose packets are discarded because its frame was dropped (R468) -/
  dropping : Option Nat := none
  /-- the frames abandoned since enable, for late packets (R480) -/
  abandoned : List Nat := []
  /-- the latest block ID completed, abandoned or dropped, for BLOCK_GAP (R466) -/
  prevBlock : Option Nat := none
  /-- frames dropped or abandoned since the previous delivery -/
  dropped : Nat := 0
  /-- the next delivered frame carries DISCONT (R482) -/
  discont : Bool := false
  deriving DecidableEq, Repr

/-! ### Power (chapters 16 and 17) -/

/-- A power domain (R530 to R532): the raw estimates of the present interval (sum in 0.01 W, and how many), the
calibrator's FP32 values, and intervals in a row in which estimate and measurement diverged (R556). -/
structure Dom where
  rawSum : Nat := 0
  rawN : Nat := 0
  me : Word := 0
  mm : Word := 0
  ve : Word := 0
  cem : Word := 0
  g : Word := 0x3F800000
  o : Word := 0
  diverge : Nat := 0
  deriving DecidableEq, Repr

/-- A quadrant beyond its registers. -/
structure Quad where
  /-- FREQ, VOLT and LEAK of the point at which it runs -/
  freq : Nat := 16
  volt : Nat := 120
  leak : Nat := 80
  /-- the change of operating point in progress: the step of Table 16-2 that it waits for (1 the PLL, 2 the rail) and the
  FREQ, VOLT and LEAK it changes to -/
  change : Option (Nat × Nat × Nat × Nat) := none
  /-- the wait and busy counts of its tiles since the last cap-loop iteration (R546) -/
  waitN : Nat := 0
  busyN : Nat := 0
  /-- since when its hottest sensor has stayed 3 °C below the present band's entry (R550) -/
  cool : Option Nat := none
  stretching : Bool := false
  /-- its PLL relocks and the clock runs from NCLK / 4 (R596) -/
  pllHold : Bool := false
  deriving DecidableEq, Repr

/-- The cap loop (R535 to R544). -/
structure CapLoop where
  /-- the last 10 sums of the calibrated estimates, newest first, in 0.01 W -/
  totals : List Int := []
  /-- links it put to sleep, latest first, and tiles it gated -/
  slept : List Nat := []
  gated : List Nat := []
  /-- compute had to give way in this many fixed-mode iterations in a row -/
  fixIter : Nat := 0
  /-- launches are held, and of which tiles (R541) -/
  hold : Bool := false
  held : List Nat := []
  /-- the point that fixed mode holds -/
  fixPoint : Nat := 11
  ack : Bool := false
  deriving DecidableEq, Repr

/-- A chip in the Cruiser's ledger (R564, R570): joined, its granted cap, and its latest REPORT; `fresh`: reported since
the last cycle. -/
structure CruChip where
  joined : Bool := false
  /-- JOINED of its last REPORT: it has applied a GRANT -/
  applied : Bool := false
  cap : Nat := 0
  fresh : Bool := false
  rcap : Nat := 0
  minCap : Nat := 0
  waitF : Nat := 0
  alert : Bool := false
  deriving DecidableEq, Repr

/-- A decrease that awaits its acknowledgement (R570): chip, grant number, cap; `late` after 5 ms. -/
structure Lower where
  chip : Nat
  gseq : Nat
  cap : Nat
  late : Bool := false
  deriving DecidableEq, Repr

/-- Power across tray and rack. -/
structure Rack where
  /-- the Cruiser: chips, ENVELOPE of each tray (350 until one comes), the last grant number, a budget to adopt, decreases
  unacknowledged, and increases that wait for them (recipient, donor) -/
  chips : SMap CruChip := []
  envs : SMap Nat := []
  gseq : Nat := 0
  newBudget : Option Nat := none
  lowers : List Lower := []
  raises : List (Nat × Nat) := []
  /-- power messages from this chip to itself: TYPE and data word -/
  loop : List (Nat × List Byte) := []
  /-- decreases applied, whose acknowledgement waits for the end of the next cap-loop iteration: their grant numbers -/
  ackDue : List Nat := []
  /-- chip totals of the present period: sum in 0.1 W and how many -/
  totSum : Nat := 0
  totN : Nat := 0
  /-- R560 lowered the cap in this period -/
  envCut : Bool := false
  /-- sum of the caps of the tray's other chips, as chip 0's island last read them -/
  others : Nat := 0
  /-- when the regulator alert was recognised -/
  alertAt : Nat := 0
  deriving DecidableEq, Repr

/-! ### The front panel (chapters 1 and 20) -/

/-- A camera port beyond its registers. -/
structure Port where
  /-- times of the latest turn-offs of R642, newest first -/
  offs : List Nat := []
  /-- samples in a row with too much power, and without the maintain power signature -/
  overN : Nat := 0
  noMps : Nat := 0
  /-- a reflectometry test runs -/
  tdr : Bool := false
  /-- event 0x8012 has been raised for the present connection -/
  told : Bool := false
  /-- link-down transitions since boot, and the time of the last change (Table 15-7) -/
  flaps : Nat := 0
  changed : Nat := 0
  deriving DecidableEq, Repr

/-- A front-panel button: pressed, the press has been used or is void, stuck. -/
structure Button where
  down : Bool := false
  used : Bool := false
  deriving DecidableEq, Repr

/-- The front panel and the tray functions of chip 0's island. -/
structure Panel where
  /-- the camera ports are enabled: since step 11 of the boot (R653) -/
  pse : Bool := false
  ports : SMap Port := []
  buttons : SMap Button := []
  /-- PoE grants by camera port, in 0.1 W (R573) -/
  grants : SMap Nat := []
  /-- samples in a row with the input outside its range -/
  vinBad : Nat := 0
  /-- fans below 50 % of command at the last reading, as a set -/
  slow : BitVec 4 := 0
  /-- when the lights were last blacked out (R648) -/
  blank : Option Nat := none
  deriving DecidableEq, Repr

/-! ### The service and the life of the tray (chapters 15 and 18) -/

/-- A gap in a stream that the runtime records as a finding (R499): LOST or DISCONT, stream, SEQ, PTP time, odometry. -/
structure Gap where
  discont : Bool
  stream : Nat
  seq : Nat
  time : Nat
  odo : Dword
  deriving DecidableEq, Repr

/-- An update session (R505): its requester (none: the recovery blocks of UART0), kind, length, digest, and the bytes that
the recovery blocks have appended. -/
structure Session where
  ip : Option Nat
  kind : Nat
  len : Nat
  digest : List Byte
  at' : Nat := 0
  deriving DecidableEq, Repr

/-- A kept response (R504): requester address, REQID, TYPE, and the response. -/
structure Reply where
  ip : Nat
  reqid : Nat
  type : Nat
  bytes : List Byte
  deriving DecidableEq, Repr

/-- The Ranger runtime beyond its registers. -/
structure Svc where
  base : Nat := 0
  /-- steps of Table 15-4 still to run; step 4 reloads every macro (R510); a quiesce waits for RUNNING (Table 15-13) -/
  todo : List Nat := []
  reload : Bool := true
  /-- a placement has been committed, or BASE changed, since the last start (R494, R505); and register writes of the step in
  progress that the runtime has still to make -/
  changed : Bool := false
  acts : List (Nat × Word) := []
  quiesce : Bool := false
  /-- the stop in progress: the state it ends in, its reason, and what follows (0 nothing, 1 retention entry, 2 power-down) -/
  stopTo : Nat := 1
  reason : Nat := 0
  after : Nat := 0
  /-- reason of the last stop -/
  lastStop : Nat := 0
  /-- entry points of the programs placed, by program index; crew tiles; windows; stream entries with their camera ports -/
  programs : SMap (Option Nat) := []
  crews : List Nat := []
  windows : List Nat := []
  streams : List (Nat × Nat) := []
  /-- the last task fault, and whether a restart is due (R511) -/
  faultAt : Option Nat := none
  restart : Bool := false
  gaps : List Gap := []
  /-- next RECSEQ; records that await a datagram, and records held for replay, oldest first, with their RECSEQ -/
  recseq : Nat := 1
  waiting : List (Nat × List Byte) := []
  held : List (Nat × List Byte) := []
  sent : Nat := 0
  rejected : Nat := 0
  datagrams : Nat := 0
  frames : Nat := 0
  /-- LOSS of each ring as last reported by an event, and as last read -/
  loss : SMap Nat := []
  lossRead : SMap Nat := []
  /-- the port table, and frames received by MAC -/
  ports : SMap (List Byte) := []
  rx : SMap Nat := []
  replies : List Reply := []
  session : Option Session := none
  /-- BUDGET requests not answered yet: interface, address, port and response -/
  budgets : List (Nat × Nat × Nat × List Byte) := []
  /-- addresses of U0, U1 and the management port since the last reset (R516) -/
  net : List Nat := []
  /-- a partner chip has reported this chip's own ID (R27) -/
  sameId : Bool := false
  /-- images that failed: [0] firmware, [1] placement, [2] directory (R507) -/
  failed : BitVec 3 := 0
  /-- SEQ of the last recovery block and its answer; whether a first block has come (R508) -/
  recSeq : Option (Nat × List Byte) := none
  /-- bytes of a recovery block that has not ended (R508) -/
  recPart : List Byte := []
  deriving DecidableEq, Repr

/-- The life of chip and tray beyond CLK_LIFE. -/
structure Life where
  /-- start of the sequence in progress (t0) -/
  t0 : Nat := 0
  /-- the chip is off, or held in reset after a failed boot (R30) -/
  off : Bool := false
  failed : Bool := false
  /-- the tag answered at boot -/
  tag : Bool := true
  /-- KIND of the record that a power-down writes, and losses noted meanwhile (R599): HBM_LOST, MACROS_LOST, DIRTY -/
  kind : Nat := 1
  hbmLost : BitVec 2 := 0
  macLost : Bool := false
  dirty : Bool := false
  /-- stream entries that were enabled when the input was lost, and fan commands before it -/
  streams : List Nat := []
  fans : List Nat := []
  /-- PoE detection ran when the input was lost -/
  pse : Bool := false
  /-- the shed of input loss holds OP0 and the issue limit -/
  shed : Bool := false
  /-- CLK_LIFE before the loss -/
  before : Word := 0
  /-- the 100 MHz reference is lost: HBM, Yarder and Landing traffic stops -/
  refLost : Bool := false
  /-- missed kicks since the last restart of the Ranger watchdog, when that was, and the period in force in ms -/
  missed : Nat := 0
  wdogAt : Nat := 0
  wdogPeriod : Nat := 0
  /-- the last KICK of the Scaler watchdog; the Scaler runs in resume mode -/
  swdogAt : Nat := 0
  resumeMode : Bool := false
  /-- spread PLLs that have not applied CLK_SSC yet -/
  sscWait : BitVec 5 := 0
  /-- odometry count at retention entry, and a wake source met during entry (Table 18-7) -/
  odoAt : Dword := 0
  wake : Option Nat := none
  /-- when the tray became RETAINED: its main rails are down since (R625) -/
  retAt : Nat := 0
  deriving DecidableEq, Repr

/-- Errors charged to a unit by the runtime (R626): the unit, OPSEC of the latest corrected error and how many were
counted, and whether an uncorrectable one was seen. -/
structure Charge where
  tile : Nat
  unit : Nat
  mac : Bool
  index : Nat
  first : Nat
  last : Option Nat
  count : Nat
  ue : Bool
  deriving DecidableEq, Repr

/-- The Blaze tag beyond its memory: the quiet state, a reader's field present, operator blocks locked for good (R669), and
MGMT_BLZ_CMD as the bridge's operation in progress was started with. -/
structure Tag where
  quiet : Bool := false
  field : Bool := false
  locked : List Nat := []
  cmd : Word := 0
  deriving DecidableEq, Repr

/-! ### The UARTs and the pins (chapters 22 and 23) -/

/-- A UART beyond its registers. -/
structure Uart where
  /-- receive entries as UARTn_RX lays them out, and characters to send, oldest first -/
  rx : List Word := []
  tx : List Byte := []
  /-- the next stored character carries GLT, and OVR -/
  glt : Bool := false
  ovr : Bool := false
  /-- a break is being received, and its length limit has been reported -/
  inBreak : Bool := false
  limitSeen : Bool := false
  /-- the line is idle and EV.IDLE was set for it (R691) -/
  idle : Bool := false
  /-- when the receive and transmit pins were last handed away -/
  rxCut : Option Nat := none
  txCut : Option Nat := none
  /-- the character being sent and when it began; the bit times of a break that waits for its end; and when the break being
  sent and its mark end -/
  sh : Option (Byte × Nat) := none
  brk : Option Nat := none
  breakUntil : Option Nat := none
  /-- DIV and FMT as they were before they last changed, and when that was -/
  was : Option (Nat × Word × Word) := none
  deriving DecidableEq, Repr
/-- What the chip sends out. -/
inductive Msg where
  /-- an event that this island passes to chip 0 for the fault ring (R664): code, source, detail -/
  | faultToChip0 (code src : Nat) (detail : Dword)
  /-- the boundary-scan register-access instruction returns its status bit as 1: its access is refused (R91) -/
  | scanRefused
  /-- an all-bank refresh, or a refresh-management command, to a pseudo-channel of a stack -/
  | dramRefresh (stack pc : Nat) | dramRfm (stack pc : Nat)
  /-- a flit on a Yarder link -/
  | flit (link : Nat) (bytes : List Byte)
  /-- an Ethernet frame sent on a MAC -/
  | ethFrame (mac : Nat) (bytes : List Byte)
  /-- a GVCP PACKETRESEND_CMD (R463): MAC, destination address, source port, extended form, SCI, block, gaps -/
  | resendCmd (mac : Nat) (ip : Word) (sport : Nat) (ext : Bool) (sci block : Nat) (gaps : List (Nat × Nat))
  /-- a set-point frame to the regulator of a quadrant (R738) -/
  | setPoint (q : Nat) (frame : BitVec 12)
  /-- a character (data bits, parity code, second stop bit), and a break of some bit times, sent by a UART -/
  | uartChar (k : Nat) (c : Byte) (fmt : Nat) | uartBreak (k bits : Nat)
  /-- over the tray management bus: a chip's new cap (R560); an island's request for a PoE grant, and chip 0's answer -/
  | trayCap (pos cap : Nat) | poeAsk (port cls : Nat) | poeAnswer (port : Nat) (granted : Bool) | poeOff (port : Nat)
  /-- over the tray management bus: IDENT of every chip toggled; TRST_N driven; the tray's input turned off -/
  | trayIdent (on : Bool) | trayReset (cause : Nat) | inputOff
  /-- a response of the Blaze tag: its flags and data -/
  | rfAnswer (bytes : List Byte)
  /-- a UDP datagram of the runtime: interface (0 U0, 1 U1, 2 management port), source address and port, destination -/
  | udp (via src sport ip port : Nat) (bytes : List Byte)
  /-- a TTCP request, or records, handed to the instance of another chip of the tray; an image copied to them -/
  | toInstance (pos : Nat) (bytes : List Byte) | copyImage (kind : Nat)
  /-- the fields of a console reply with its final line, OK or ERR n; characters that the boot ROM sends on UART0 -/
  | console (bytes : List Byte) (err : Nat) | romText (bytes : List Byte)
  deriving DecidableEq, Repr

/-- The chip, its island and the tray functions the island serves. -/
structure State where
  /-- the commands that wait, first in, first out -/
  pending : List Instr := []
  /-- ns since power-on reset (the model's own clock; R2) -/
  now : Nat := 0
  /-- free values drawn so far (the model's own counter) -/
  draws : Nat := 0
  /-- messages sent, oldest first (the model's own record of the chip's outputs) -/
  out : List Msg := []
  /-- every register of the register space by offset; an unlisted one holds its reset value -/
  regs : SMap Word := []
  /-- the applied value of registers with class L fields (R8, R9); unlisted: the reset value -/
  app : SMap Word := []
  /-- differences of the three copies of voted registers from the register, by offset * 4 + copy (R68) -/
  votes : SMap Word := []
  /-- consecutive sweeps in which a register was repaired (R72) -/
  voteRuns : SMap Nat := []
  /-- first repair (offset, bit) and number of repairs of the present sweep period (R71) -/
  voteFirst : Option (Nat × Nat) := none
  voteRepairs : Nat := 0
  /-- per agent (index * 8): 0 the counter latch (R63), 1 and 2 LOG1 and LOG2 (R622), 3 to 5 the staged event (R631) -/
  latches : SMap Word := []
  /-- the Tally ring by entry, its arrival queue, and the rate limits by code * 256 + source -/
  tally : SMap TallyRec := []
  arrivals : List TallyRec := []
  limits : SMap Limit := []
  /-- tile clock cycles of each quadrant, and NCLK cycles -/
  tclk : SMap Nat := []
  nclk : Nat := 0
  /-- the tiles, the Ranger cores and their notice queues (oldest first), the crew barriers by crew * 8 + number -/
  tiles : SMap Tile := []
  rangers : SMap Core := []
  notices : SMap (List Nat) := []
  barriers : SMap (List Nat) := []
  /-- scratchpad bytes by tile * 2^20 + bank * 65536 + index * 64 + byte; marks and tag copies by
  tile * 2^14 + bank * 1024 + index -/
  spad : SMap Byte := []
  spMark : SMap WMark := []
  spTag : SMap (BitVec 3) := []
  /-- macro rows by (tile * 16 + macro) * 4096 + row: columns 0 to 143, and which of columns 0 to 152 have flipped -/
  mrow : SMap (BitVec 144) := []
  mflip : SMap (BitVec 153) := []
  /-- row-group records and health by (tile * 16 + macro) * 32 + row-group; counts by tile * 16 + macro -/
  rgRec : SMap RgRec := []
  health : SMap (BitVec 2) := []
  macCnt : SMap MacCnt := []
  restoreQ : List RstReq := []
  /-- the restore in progress -/
  restore : Option Restore := none
  errLog : List LogEntry := []
  errLostSec : Nat := 0
  /-- spares programmed beyond the fused ones: tile, bank or macro, whether a macro, row or column, and spare -/
  repairs : List (Nat × Nat × Bool × Nat × Nat) := []
  /-- errors the runtime has charged to units (R626), and when OPSEC was last brought up to date -/
  charges : List Charge := []
  opsecAt : Nat := 0
  /-- HBM bytes by pseudo-channel * 2^30 + offset, word marks by pseudo-channel * 2^24 + word -/
  hbm : SMap Byte := []
  hbmMark : SMap WMark := []
  hbmCtl : SMap HbmCtl := []
  /-- island SRAM and flash -/
  sram : SMap Byte := []
  flash : SMap Byte := []
  /-- outstanding transactions by Choker tag -/
  txns : SMap (Option Txn) := []
  /-- transactions issued so far -/
  txnOrd : Nat := 0
  /-- the Yarder links; the chips whose DRAINED each closing window awaits; the CLOSE_NOTEs not yet answered -/
  links : SMap Link := []
  winWait : SMap (List Nat) := []
  /-- requests from other chips that wait at a bank under initialisation or handover: packet, window (R332, R344) -/
  heldReqs : List (Packet × Nat) := []
  closeNotes : List NoteWait := []
  /-- the camera streams, and the packets in Landing's staging memory, oldest first -/
  streams : SMap Strm := []
  ingest : List Staged := []
  /-- the PTP clock in units of 2^-40 ns (R472), the odometry count, and the accepted levels of channels A and B (R475) -/
  time : Nat := 0
  odo : Dword := 0
  odoAb : Bool × Bool := (false, false)
  /-- the memory of the Blaze tag, byte by byte (R656), and the codes of the fault records written since boot (R665) -/
  blaze : SMap Byte := []
  faultCodes : List Nat := []
  /-- power domains, quadrants, the cap loop, and wait and busy counts of the present period by 2 * phase (R545) -/
  doms : SMap Dom := []
  quads : SMap Quad := []
  cap : CapLoop := {}
  phCnt : SMap Nat := []
  /-- power across tray and rack; the front panel -/
  rack : Rack := {}
  panel : Panel := {}
  /-- the Blaze tag -/
  blz : Tag := {}
  /-- the service, and the life of chip and tray -/
  svc : Svc := {}
  life : Life := {}
  /-- the UARTs; the filtered level of each pin, the GPIO input bits that a hand-over holds, and PINS_GPIO_EV at the
  previous event 0x6010 with its time (R716) -/
  uarts : SMap Uart := []
  pinLevel : Word := 0xFE4FFE00
  gpioHeld : Word := 0
  gpioTold : Word × Option Nat := (0, none)
  deriving DecidableEq, Repr

/-- The chip right after power-on reset, every pin of the slot code and the straps at 0. -/
def State.reset : State := { regs := [(Reg.CHIP_POS, 0x200)] }

end Sys2Proof.Machine
end

