-- ==== Sys2Proof/Machine/Ops.lean ====
section
/-! DEFINITION. The named operations that every block shares: registers, events and the Tally, free values, cores,
taking an exception and returning from one. -/

namespace Sys2Proof

/-- Agent index of a core (Table 3-8). -/
def CoreId.index : CoreId → Nat
  | .tile n => n
  | .ranger k => 144 + k

/-- Agent index of a register-access agent (Table 3-8). -/
def Agent.index : Agent → Nat
  | .tile n => n
  | .ranger k => 144 + k
  | .scaler => 149
  | .jtag => 150

/-- The core that a register access of an agent comes from. -/
def Agent.coreId : Agent → Option CoreId
  | .tile n => some (.tile n)
  | .ranger k => some (.ranger k)
  | _ => none

/-- The agent that a core's register accesses come from. -/
def CoreId.agent : CoreId → Agent
  | .tile n => .tile n
  | .ranger k => .ranger k

/-- Is `c` a Ranger core. -/
def CoreId.isRanger : CoreId → Bool
  | .tile _ => false
  | .ranger _ => true

end Sys2Proof

namespace Sys2Proof.Machine
open Sys2Proof

/-! ### Registers -/

/-- The stored value of the register at an offset. -/
def State.rd (s : State) (off : Nat) : Word := s.regs.get (regReset off) off

/-- Store a register. -/
def State.wr (s : State) (off : Nat) (v : Word) : State := { s with regs := s.regs.set (regReset off) off v }

/-- Write a register with all three copies of its voted fields (R68, Table 3-4). -/
def State.wrCopies (s : State) (off : Nat) (v : Word) : State := { s.wr off v with votes := s.votes.clear (4 * off) 4 }

/-- A field of a stored register. -/
def State.getF (s : State) (off hi lo : Nat) : Nat := Sys2Proof.fld (s.rd off) hi lo

/-- A bit of a stored register. -/
def State.bit (s : State) (off i : Nat) : Bool := (s.rd off).getLsbD i

/-- Set a field of a register. -/
def State.setF (s : State) (off hi lo x : Nat) : State := s.wr off (setFld (s.rd off) hi lo x)

/-- Set a bit of a register. -/
def State.setBit (s : State) (off i : Nat) (b : Bool) : State := s.setF off i i (b2n b)

/-- Add 1 to a 32-bit counter that saturates. -/
def State.count (s : State) (off : Nat) : State := s.wr off (satInc (s.rd off))

/-- Add `n` to a 32-bit counter that saturates. -/
def State.countBy (s : State) (off n : Nat) : State := s.wr off (satAdd (s.rd off) n)

/-- Add 1 to a 32-bit counter that wraps. -/
def State.countWrap (s : State) (off : Nat) : State := s.wr off (s.rd off + 1)

/-- Add 1 to a counter field [hi:lo] that saturates. -/
def State.countF (s : State) (off hi lo : Nat) : State :=
  s.setF off hi lo (min (s.getF off hi lo + 1) (2 ^ (hi + 1 - lo) - 1))

/-- A 64-bit value in a LO and HI pair. -/
def State.rd64 (s : State) (lo : Nat) : Nat := (s.rd lo).toNat + 2 ^ 32 * (s.rd (lo + 4)).toNat

/-- Store a LO and HI pair. -/
def State.wr64 (s : State) (lo v : Nat) : State := (s.wr lo (BitVec.ofNat 32 v)).wr (lo + 4) (BitVec.ofNat 32 (v / 2 ^ 32))

/-- The value of a class L register that is in force (R8, R9). -/
def State.inForce (s : State) (off : Nat) : Word := s.app.get (regReset off) off

/-- Bring the written value of a class L register into force. -/
def State.apply (s : State) (off : Nat) : State := { s with app := s.app.set (regReset off) off (s.rd off) }

/-- Clear PENDING bits of a block instance whose header lies at `base` (R79). -/
def State.clearPend (s : State) (base : Nat) (mask : Word) : State :=
  s.wr (base + Reg.PEND) (s.rd (base + Reg.PEND) &&& ~~~mask)

/-- Bring every register of a block instance to its reset value: all three copies of voted fields with it (R93). -/
def State.resetRange (s : State) (lo n : Nat) : State :=
  { s with regs := s.regs.clear lo n, app := s.app.clear lo n, votes := s.votes.clear (4 * lo) (4 * n),
           voteRuns := s.voteRuns.clear (32 * lo) (32 * n) }

/-- A command acts on everything but the queue, and only an idle tick moves the clocks (log 1). -/
def State.apart (s : State) (f : State → State) : State :=
  { f s with pending := s.pending, now := s.now, nclk := s.nclk }

/-- A command that the chip takes while it has a supply; otherwise nothing happens. -/
def State.live (s : State) (f : State → State) : State := if s.life.off then s else s.apart f

/-- A message out of the chip. -/
def State.emit (s : State) (m : Msg) : State := { s with out := s.out ++ [m] }

/-- Draw the next free value of `w` bits: one the spec leaves open. -/
def State.draw (s : State) (w : Nat) : BitVec w × State := (Config.freeValue w s.draws, { s with draws := s.draws + 1 })

/-! ### Identity and time -/

/-- CHIP_POS.CHIPID. -/
def State.chipId (s : State) : Nat := s.getF Reg.CHIP_POS 23 16
/-- CHIP_POS.POS. -/
def State.pos (s : State) : Nat := s.getF Reg.CHIP_POS 1 0
/-- CHIP_POS.SLOT_OK (R96). -/
def State.slotOk (s : State) : Bool := s.bit Reg.CHIP_POS 9
/-- The tray number as messages, events and default addresses take it: a chip whose SLOT_OK is 0 belongs to no tray (R96), and
the spec gives no number for it, so the model takes a free one (DESIGN CHOICE, log 64). -/
def State.trayByte (s : State) : Nat := if s.slotOk then s.getF Reg.CHIP_POS 7 4 else Config.noTray.toNat
/-- TIME_NOW: 64-bit ns of PTP time (R472). -/
def State.timeNow (s : State) : Nat := (s.time / 2 ^ 40) % 2 ^ 64

/-- Quadrant of tile n (R38, R39). -/
def quadOf (n : Nat) : Nat := (if 6 ≤ n % 12 then 1 else 0) + (if 72 ≤ n then 2 else 0)

/-! ### The Blaze fault ring (R663 to R665) -/

/-- Bytes of the tag from `byte`. -/
def State.blazeBytes (s : State) (byte n : Nat) : List Byte := s.blaze.getMany 0 byte n
/-- Write bytes of the tag from `byte`. -/
def State.blazePut (s : State) (byte : Nat) (bs : List Byte) : State := { s with blaze := s.blaze.setMany 0 byte bs }

/-- SEQ of the valid fault record in slot `i`, if its CRC matches (R663). -/
def State.faultSeq (s : State) (i : Nat) : Option Nat :=
  let b := s.blazeBytes (1024 + 32 * i) 32
  if crc16 (b.take 30) = leAt b 30 2 then some (leAt b 0 4) else none

/-- The highest valid SEQ of the fault ring: of the slots in `is`, the one that no later slot exceeds (R664).  A slot
of zeros carries no record. -/
def State.faultTop (s : State) : Option Nat :=
  (List.range 64).foldl (fun acc i =>
    match s.faultSeq i with
    | none => acc
    | some q => match acc with
      | none => some q
      | some p => some (max p q)) none

/-- The 32 bytes of a fault record (R663); `opsec` is OPSEC as last written. -/
def faultBytes (seq code chip src time : Nat) (detail : Dword) (opsec : Nat) : List Byte :=
  let b := leBytes 4 seq ++ leBytes 2 code ++ leBytes 1 chip ++ leBytes 1 src ++ leBytes 8 time ++
    leBytes 8 detail.toNat ++ leBytes 4 opsec ++ leBytes 2 0
  b ++ leBytes 2 (crc16 b)

/-- The soft repair table copy in use: its flash offset (R624), the one of higher SEQ of the valid copies. -/
def State.repairCopyOk (s : State) (o : Nat) : Bool :=
  let h := s.flash.getMany 0xFF o 64
  let n := leAt h 12 2
  let body := s.flash.getMany 0xFF (o + 64) (16 * n)
  leAt h 0 4 = 0x31525354 && decide (n ≤ 4096) && decide (crc32 (h.take 60 ++ body) = leAt h 60 4)

/-- Flash offset of the soft repair table copy that a reader takes, if either is valid (R624). -/
def State.repairCopy (s : State) : Option Nat :=
  let a := 0x100000
  let b := 0x180000
  match s.repairCopyOk a, s.repairCopyOk b with
  | true, true =>
    let d := (leAt (s.flash.getMany 0xFF b 12) 8 4 + 2 ^ 32 - leAt (s.flash.getMany 0xFF a 12) 8 4) % 2 ^ 32
    if 0 < d ∧ d < 2 ^ 31 then some b else some a
  | true, false => some a
  | false, true => some b
  | false, false => none

/-- OPSEC, seconds of operation as the soft repair table last recorded it (R624, R625). -/
def State.opsec (s : State) : Nat :=
  match s.repairCopy with
  | some o => leAt (s.flash.getMany 0xFF (o + 16) 8) 0 8
  | none => 0

/-- Write a Blaze fault record, within one record per code and 16 records per boot; chip 0's island writes, the other
islands pass the event on (R664, R665). -/
def State.faultRecord (s : State) (code src : Nat) (detail : Dword) : State :=
  if s.pos ≠ 0 then s.emit (.faultToChip0 code src detail)
  else if s.faultCodes.contains code || decide (16 ≤ s.faultCodes.length) then s.count Reg.MGMT_BLZ_FDROP
  else
    let seq := match s.faultTop with | none => 1 | some t => t + 1
    let slot := match s.faultTop with | none => 0 | some t => (t + 1) % 64
    let s := { s with faultCodes := s.faultCodes ++ [code] }
    s.blazePut (1024 + 32 * slot) (faultBytes seq code s.chipId src s.timeNow detail s.opsec)

/-- The events of Table 21-4 that are copied to the fault ring on their own account. -/
def faultEvents : List Nat :=
  [0x2012, 0x2044, 0x2061, 0x2063, 0x5052, 0x5201, 0x5202, 0x5203, 0x5212, 0x5215, 0x5216, 0x7022, 0x8013, 0x8031,
   0x8040, 0x8041]

/-! ### Events (R629, R630, R758) -/

/-- Move the arrival queue into the ring (R630). -/
def State.drainTally : List TallyRec → State → State
  | [], s => { s with arrivals := [] }
  | r :: rs, s =>
    let k := (s.rd Reg.TALLY_COUNT).toNat % 1024
    drainTally rs ({ s with tally := s.tally.set {} k r }.countWrap Reg.TALLY_COUNT)

/-- While FREEZE is 0 the queue empties into the ring. -/
def State.flowTally (s : State) : State := if s.bit Reg.TALLY_CTRL 0 then s else State.drainTally s.arrivals s

/-- An event enters the island's arrival queue, stamped, or is counted lost when 64 wait (R630). -/
def State.tallyIn (s : State) (code src : Nat) (detail : Dword) : State :=
  if 64 ≤ s.arrivals.length then s.count Reg.TALLY_LOST
  else
    State.flowTally { s with arrivals := s.arrivals ++
      [{ time := BitVec.ofNat 48 s.timeNow, code := BitVec.ofNat 16 code, detail := detail,
         chip := BitVec.ofNat 8 s.chipId, src := BitVec.ofNat 8 src }] }

/-- Raise an event: into the Tally, and into the fault ring where Table 21-4 lists it. -/
def State.raise (s : State) (code src : Nat) (detail : Nat := 0) : State :=
  let d := BitVec.ofNat 64 detail
  let s := s.tallyIn code src d
  if faultEvents.contains code then s.faultRecord code src d else s

/-- Raise an event at most once per `period` ns for its source; `detail` gets the occurrences since the last one, this
one included (R758). -/
def State.raiseLim (s : State) (code src : Nat) (detail : Nat → Nat) (period : Nat := 1000000) : State :=
  let k := code * 256 + src
  let l := s.limits.get {} k
  let due := match l.last with | none => true | some t => decide (t + period ≤ s.now)
  if due then
    State.raise { s with limits := s.limits.set {} k ⟨some s.now, 0⟩ } code src (detail (l.since + 1))
  else { s with limits := s.limits.set {} k ⟨l.last, l.since + 1⟩ }

/-- A reset of the n sources from `src` on: the interval of every limited event of these codes restarts for them (R758). -/
def State.freshLimits (s : State) (codes : List Nat) (src : Nat) (n : Nat := 1) : State :=
  { s with limits := s.limits.filter fun p =>
      !(codes.contains (p.1 / 256) && decide (src ≤ p.1 % 256 ∧ p.1 % 256 < src + n)) }

/-- The limited events whose source is a tile: R281, R302, R331, R618, R51 and, of its own tags, R396. -/
def tileLimited : List Nat := [0x1010, 0x1011, 0x2030, 0x2053, 0x3110, 0x3120]

/-- A write of `v` that would change a class Q field of a busy block is discarded (R77, R78). -/
def State.discardQ (s : State) (off : Nat) (v : Word) : State :=
  match locate off with
  | none => s
  | some l =>
    let c := l.blk.base + l.inst * l.blk.size + Reg.CFG_STAT
    let s := if s.bit c 0 then s else (s.setBit c 0 true).setF c 30 8 off
    s.raise 0x2021 l.blk.kind (off + 2 ^ 24 * (if 1 < l.blk.count then l.inst else 0) + 2 ^ 32 * v.toNat)

/-- A refused access is recorded in CHIP_BADACC and raises event 0x2020 (R90); `who` is an agent index. -/
def State.regRefused (s : State) (who off : Nat) (write : Bool) (reason : Nat) (isAlias : Bool) : State :=
  let d := off % 2 ^ 23 + 2 ^ 23 * b2n write + 2 ^ 24 * reason + 2 ^ 26 * b2n isAlias
  (s.wr Reg.CHIP_BADACC (BitVec.ofNat 32 (d + 2 ^ 31))).raise 0x2020 who d

/-! ### Tiles and cores -/

/-- Tile n. -/
def State.tile (s : State) (n : Nat) : Tile := s.tiles.get {} n
/-- Store tile n. -/
def State.setTile (s : State) (n : Nat) (t : Tile) : State := { s with tiles := s.tiles.set {} n t }
/-- Change tile n. -/
def State.modTile (s : State) (n : Nat) (f : Tile → Tile) : State := s.setTile n (f (s.tile n))

/-- A Ranger core as it leaves reset (R58): at the boot ROM, in runtime mode, EXC 0. -/
def Core.rangerReset : Core := { pc := 0x1E00100000, status := 1 }

/-- Core `c`. -/
def State.core (s : State) : CoreId → Core
  | .tile n => (s.tile n).core
  | .ranger k => s.rangers.get Core.rangerReset k

/-- Store core `c`. -/
def State.setCore (s : State) (c : CoreId) (x : Core) : State :=
  match c with
  | .tile n => s.modTile n fun t => { t with core := x }
  | .ranger k => { s with rangers := s.rangers.set Core.rangerReset k x }

/-- Change core `c`. -/
def State.modCore (s : State) (c : CoreId) (f : Core → Core) : State := s.setCore c (f (s.core c))

/-! status, special register 1 -/
def Core.mode (x : Core) : Bool := x.status.getLsbD 0
def Core.pmode (x : Core) : Bool := x.status.getLsbD 1
def Core.exc (x : Core) : Bool := x.status.getLsbD 2
def Core.dztrap (x : Core) : Bool := x.status.getLsbD 3
def Core.ovtrap (x : Core) : Bool := x.status.getLsbD 4
def Core.step (x : Core) : Bool := x.status.getLsbD 5
def Core.dbg (x : Core) : Bool := x.status.getLsbD 6
/-- status with bit `i` set to `b`. -/
def Core.withStatus (x : Core) (i : Nat) (b : Bool) : Core := { x with status := setFld x.status i i (b2n b) }

/-- Scalar register r: s0 reads 0 (R103); s2 of a Ranger core follows MODE (R101).  On a tile MODE is always 0. -/
def Core.sreg (x : Core) (r : BitVec 5) : Dword :=
  if r = 0 then 0 else if r = 2 ∧ x.mode then x.s2rt else x.s.get 0 r.toNat

/-- Write scalar register r; a write to s0 is discarded (R103). -/
def Core.setS (x : Core) (r : BitVec 5) (v : Dword) : Core :=
  if r = 0 then x else if r = 2 ∧ x.mode then { x with s2rt := v } else { x with s := x.s.set 0 r.toNat v }

/-- Vector register r. -/
def Core.vreg (x : Core) (r : BitVec 5) : BitVec 2048 := x.v.get 0 r.toNat
/-- Write vector register r. -/
def Core.setV (x : Core) (r : BitVec 5) (v : BitVec 2048) : Core := { x with v := x.v.set 0 r.toNat v }
/-- Mask register r: m0 reads as all ones (R103). -/
def Core.mreg (x : Core) (r : BitVec 3) : Dword := if r = 0 then BitVec.allOnes 64 else x.m.get 0 r.toNat
/-- Write mask register r; a write to m0 is discarded (R103). -/
def Core.setM (x : Core) (r : BitVec 3) (v : Dword) : Core :=
  if r = 0 then x else { x with m := x.m.set 0 r.toNat v }

/-! ### Notices to a Ranger core (R116, R120, R619) -/

/-- Post a notice of `kind` from tile n to its NOTIFY core, or hold it while the queue of 512 is full (chapter 15). -/
def State.postNotice (s : State) (n kind : Nat) : State :=
  let k := (s.tile n).notify.toNat
  let q := s.notices.get [] k
  if 512 ≤ q.length then s.modTile n fun t => { t with noticeHeld := t.noticeHeld ++ [kind] }
  else { s with notices := s.notices.set [] k (q ++ [n + 256 * kind]) }

/-! ### Taking an exception and returning from one (R118 to R123, R129, R130) -/

/-- The cause word: CODE, ASYNC, MULTI, ENGINE, UNIT. -/
def causeWord (code : Nat) (async : Bool) (engine unit : Nat) : Dword :=
  BitVec.ofNat 64 (code % 64 + 64 * b2n async + 256 * (engine % 16) + 65536 * (unit % 65536))

/-- Event 0x1002 for a further exception of the core of agent index n (R121): cause [15:0], tval [47:0]. -/
def State.furtherExc (s : State) (n : Nat) (cause tval : Dword) : State :=
  s.raise 0x1002 n (cause.toNat % 2 ^ 16 + 2 ^ 16 * (tval.toNat % 2 ^ 48))

/-- An exception of tile n: cause, epc and tval are written and the tile enters DRAINING, to end STOPPED (R120); the
event 0x1001 and the notice come when it stops. -/
def State.tileExc (s : State) (n : Nat) (cause epc tval : Dword) : State :=
  s.modTile n fun t =>
    { t with exit := none, core := { t.core with cause := cause, epc := epc, tval := tval, task := .draining,
                                                 wait := .none, stopReq := false } }

/-- RANGER_EVEC of core k (R122). -/
def State.evec (s : State) (k : Nat) : Dword :=
  BitVec.ofNat 64 (s.rd (Reg.RANGER k 0)).toNat + BitVec.ofNat 64 (2 ^ 32 * Sys2Proof.fld (s.rd (Reg.RANGER k 4)) 15 0)

/-- A Ranger core halts, and event 0x7001 is recorded with cause and epc (R58, R130). -/
def State.rangerHalt (s : State) (k : Fin 4) (cause epc : Dword) : State :=
  (s.modCore (.ranger k) fun x => { x with halted := true, wait := .none }).raise 0x7001 k
    (cause.toNat % 2 ^ 16 + 2 ^ 16 * (epc.toNat % 2 ^ 48))

/-- An exception of Ranger core k: cause, epc, tval, PMODE from MODE, MODE 1, EXC 1 and pc at RANGER_EVEC (R122), where
the boot ROM's own entry halts the core (R58); with EXC already 1 the core halts, nothing else of it changes and the event's
detail holds the cause and epc of the new exception (R130; whose they are is DESIGN CHOICE, log 66). -/
def State.rangerExc (s : State) (k : Fin 4) (cause epc tval : Dword) : State :=
  let x := s.core (.ranger k)
  if x.exc then s.rangerHalt k cause epc
  else
    let s' := s.setCore (.ranger k) { ((x.withStatus 1 x.mode).withStatus 0 true).withStatus 2 true with
      cause := cause, epc := epc, tval := tval, pc := s.evec k, wait := .none }
    if s.evec k = 0x1E00100000 then s'.rangerHalt k cause epc else s'

/-- Take an exception on core `c` with the given cause word, epc and tval. -/
def State.takeExc (s : State) (c : CoreId) (cause epc tval : Dword) : State :=
  match c with
  | .tile n => s.tileExc n cause epc tval
  | .ranger k => s.rangerExc k cause epc tval

/-- Set MULTI on core `c` and record each further deferred exception as event 0x1002, whose source is the core's agent
index (R121, R129; a Ranger core: DEDUCED, log 56). -/
def State.multi (c : CoreId) : List Deferred → State → State
  | [], s => s
  | d :: ds, s =>
    multi c ds ((s.modCore c fun x => { x with cause := setFld x.cause 7 7 1 }).furtherExc c.index
      (causeWord d.code true d.engine d.unit) d.tval)

/-- Drop the deferred exceptions that core `c` holds at this boundary: MULTI is set, and each is recorded as a further one
(Table 4-7). -/
def State.flushDeferred (s : State) (c : CoreId) : State :=
  State.multi c (s.core c).deferred (s.modCore c fun x => { x with deferred := [] })

/-- A precise exception of core `c` at its present instruction (R118): epc holds its address, ASYNC is 0; deferred
exceptions reported at the same boundary become further ones (Table 4-7). -/
def State.precise (s : State) (c : CoreId) (code : Nat) (tval : Dword) (unit : Nat := 0) : State :=
  (s.takeExc c (causeWord code false 0 unit) (s.core c).pc tval).flushDeferred c

/-- The deferred exception of lower cause code first, the earlier report first among equals (Table 4-7). -/
def lowestDeferred : List Deferred → Option Deferred
  | [] => none
  | d :: ds => match lowestDeferred ds with
    | none => some d
    | some e => if e.code < d.code then some e else some d

/-- At an instruction boundary of core `c`: a reported deferred exception is taken with epc at the next instruction
(R119), or else a written STOP stops the task with cause 0x23 (R117). -/
def State.boundary (s : State) (c : CoreId) : State :=
  let x := s.core c
  match lowestDeferred x.deferred with
  | some d =>
    let s := s.modCore c fun x => { x with deferred := x.deferred.erase d }
    (s.takeExc c (causeWord d.code true d.engine d.unit) x.pc d.tval).flushDeferred c
  | none => if x.stopReq then s.takeExc c (causeWord 0x23 false 0 0) x.pc 0 else s

/-- The present instruction of core `c` completes and the next one is at `next`: with STEP 1 before the instruction it
raises 0x22, precise, with epc at the next instruction (R124, R172); then the boundary's exceptions are taken. -/
def State.retireAt (s : State) (c : CoreId) (next : Dword) (stepping : Bool) : State :=
  let s := s.modCore c fun x => { x with pc := next, wait := .none }
  if stepping then (s.takeExc c (causeWord 0x22 false 0 0) next 0).flushDeferred c else s.boundary c

/-- The present instruction of core `c` completes and execution goes on after it. -/
def State.retire (s : State) (c : CoreId) : State := s.retireAt c ((s.core c).pc + 4) (s.core c).step

/-- A deferred exception is reported to core `c` (R119, R121, R129): while DRAINING it is taken if none is held,
ending the task STOPPED, and is a further one otherwise; while RUNNING it is taken at the next boundary, which is now
unless an instruction waits; a core without a task has nothing to stop.  HALT keeps pc (log 14) and has been executed, so
the next instruction not yet executed is the one after it. -/
def State.defer (s : State) (c : CoreId) (d : Deferred) : State :=
  let x := s.core c
  match c with
  | .ranger _ =>
    if x.halted then s
    else
      let s := s.modCore c fun x => { x with deferred := x.deferred ++ [d] }
      if x.wait = .none then s.boundary c else s
  | .tile n =>
    match x.task with
    | .running =>
      let s := s.modCore c fun x => { x with deferred := x.deferred ++ [d] }
      if x.wait = .none then s.boundary c else s
    | .draining =>
      if (s.tile n).exit.isSome then s.tileExc n (causeWord d.code true d.engine d.unit) (x.pc + 4) d.tval
      else State.multi c [d] s
    | _ => s

/-- ERET: pc from epc, MODE from PMODE, EXC cleared (R123). -/
def State.excReturn (s : State) (k : Fin 4) : State :=
  let x := s.core (.ranger k)
  s.setCore (.ranger k) { ((x.withStatus 0 x.pmode).withStatus 2 false) with pc := x.epc }

/-- TILE_TASK_STAT.STATE codes. -/
def TaskState.code : TaskState → Nat
  | .idle => 0 | .running => 1 | .draining => 2 | .halted => 3 | .stopped => 4

/-- Fold over 0 to n - 1. -/
def forN {α : Type} (n : Nat) (f : Nat → α → α) (a : α) : α := (List.range n).foldl (fun a i => f i a) a

end Sys2Proof.Machine
end

