-- ==== Sys2Proof/Machine/RegStore.lean ====
section
/-! DEFINITION. Storing a written word in a register: which fields take it, and the PENDING bits of class L fields (R4, R7,
R79). -/

namespace Sys2Proof.Machine
open Sys2Proof

/-- Offset of the block instance at a location. -/
def Loc.base (l : Loc) : Nat := l.blk.base + l.inst * l.blk.size

/-- PENDING bits of the class L fields of a register that a write of all of it (`none`) or of one bit reaches (R79). -/
def pendBits (l : Loc) (bit : Option Nat) : Nat :=
  l.fields.foldl (fun m f =>
    let hit := match bit with | none => true | some b => decide (f.lo ≤ b ∧ b ≤ f.hi)
    match f.cls with
    | .l k => if hit then m ||| 2 ^ k else m
    | .lInst => if hit then m ||| 2 ^ l.index else m
    | _ => m) 0

/-- Set PENDING bits of a block instance. -/
def State.setPend (s : State) (base bits : Nat) : State :=
  let s := if bits % 2 ^ 32 = 0 then s else s.wr (base + Reg.PEND) (s.rd (base + Reg.PEND) ||| BitVec.ofNat 32 bits)
  if bits / 2 ^ 32 = 0 then s
  else s.wr (base + Reg.PEND_HI) (s.rd (base + Reg.PEND_HI) ||| BitVec.ofNat 32 (bits / 2 ^ 32))

/-- Store the word of a register after a write: RW fields take `v`, the W1C bits that `v` names clear and the W1S bits that
it names are set (R4); the three copies of voted fields agree afterwards (Table 3-4). -/
def State.regStore (s : State) (l : Loc) (off : Nat) (v : Word) (bit : Option Nat) : State :=
  let m := fieldMask l.fields fun f => f.acc == .rw || f.acc == .rwv
  let c := fieldMask l.fields fun f => f.acc == .w1c
  let o := fieldMask l.fields fun f => f.acc == .w1s
  (s.wrCopies off ((s.rd off &&& ~~~m &&& ~~~(v &&& c)) ||| (v &&& (m ||| o)))).setPend l.base (pendBits l bit)

/-- A write of a whole word that the runtime makes, stored as any write of it is. -/
def State.putReg (s : State) (off : Nat) (v : Word) : State :=
  match locate off with
  | none => s
  | some l => s.regStore l off v none

end Sys2Proof.Machine
end

