-- ==== Sys2Proof/Machine/Vote.lean ====
section
/-! DEFINITION. The voting of the tripled register fields (R68, R69). -/

namespace Sys2Proof.Machine
open Sys2Proof

/-- A field that was repaired: its key, offset * 32 + low bit, the lowest disagreeing bit, and the block kind. -/
structure Repaired where
  key : Nat
  off : Nat
  low : Nat
  kind : Nat

/-- The votes of one voted field `f` of the register at `off`, whose copies differ from it by `d`. -/
def State.voteField (s : State) (l : Loc) (off : Nat) (d : Nat → Word) (f : RField) : List Repaired × State :=
  let m := fieldMask [f] fun _ => true
  let cs := (List.range 3).map fun c => (s.rd off ^^^ d c) &&& m
  let maj := maj3 (cs.getD 0 0) (cs.getD 1 0) (cs.getD 2 0)
  let bad := cs.map fun c => c ^^^ maj
  let any := bad.foldl (· ||| ·) 0
  if any = 0 then ([], s)
  else
    let low := ((List.range 32).find? fun i => any.getLsbD i).getD 0
    let mask := bad.zipIdx.foldl (fun t b => t + b2n (b.1 != 0) * 2 ^ b.2) 0
    let s := s.wr off ((s.rd off &&& ~~~m) ||| maj)
    let s := (s.count Reg.CHIP_VOTE_CNT).setBit (l.base + Reg.CFG_STAT) 3 true
    let s := s.wr Reg.CHIP_VOTE_LAST (BitVec.ofNat 32 (off + 2 ^ 23 * low + 2 ^ 28 * mask + 2 ^ 31))
    ([⟨off * 32 + f.lo, off, low, l.blk.kind⟩],
      { s with voteRepairs := s.voteRepairs + 1, voteFirst := s.voteFirst.orElse fun _ => some (off, low) })

/-- Every voted field of the register at `off` is voted (R68, R69). -/
def State.voteReg (s : State) (off : Nat) : List Repaired × State :=
  match locate off with
  | none => ([], s)
  | some l =>
    let d := fun (c : Nat) => s.votes.get 0 (4 * off + c)
    let fs := l.fields.filter fun f => f.acc == .rwv || f.acc == .rov
    let (rs, s) := fs.foldl (fun (a : List Repaired × State) f =>
      let (r, s) := a.2.voteField l off d f
      (a.1 ++ r, s)) ([], s)
    (rs, { s with votes := s.votes.clear (4 * off) 4 })

/-- Do the copies of a voted field of the register at `off` disagree. -/
def State.torn (s : State) (off : Nat) : Bool := (List.range 3).any fun c => s.votes.get 0 (4 * off + c) != 0

/-- The register at `off` is read or used: copies that disagree are met, repaired, counted and recorded (R68, R69). -/
def State.voteUse (s : State) (off : Nat) : State := if s.torn off then (s.voteReg off).2 else s

/-- The voted registers at `lo` up to `lo + n` are used. -/
def State.voteRange (s : State) (lo n : Nat) : State :=
  let offs := ((s.votes.filter fun p => decide (4 * lo ≤ p.1 ∧ p.1 < 4 * (lo + n))).map fun p => p.1 / 4).eraseDups
  offs.foldl (fun s off => s.voteUse off) s

/-- An access uses the owner map of tile n. -/
def State.ownerUse (s : State) (n : Nat) : State :=
  (s.voteUse (Reg.TILE n Reg.TILE_OWNER_MAP0)).voteUse (Reg.TILE n (Reg.TILE_OWNER_MAP0 + 4))

end Sys2Proof.Machine
end

