-- ==== Sys2Proof/Machine/Spad.lean ====
section
/-! DEFINITION. The scratchpad of a tile (chapter 10): banks, stripes, owners, SECDED and poison, full/empty tags, the
gather buffer, and the full/empty operations at a bank.  A word of tile n is named by bank * 1024 + index. -/

namespace Sys2Proof.Machine
open Sys2Proof

/-! ### Geometry (R320, R323, R324) -/

/-- Stripe i of tile n when enabled: first bank and number of banks. -/
def State.stripe (s : State) (n i : Nat) : Option (Nat × Nat) :=
  let r := s.rd (Reg.TILE n (Reg.TILE_STRIPE i))
  if r.getLsbD 7 then some (fld r 3 0, 2 ^ fld r 6 4) else none

/-- The enabled stripe of tile n that holds bank b, with its number. -/
def State.stripeOf (s : State) (n b : Nat) : Option (Nat × Nat × Nat) :=
  (List.range 4).findSome? fun i =>
    match s.stripe n i with
    | some (f, k) => if f ≤ b ∧ b < f + k then some (i, f, k) else none
    | none => none

/-- The word that holds offset `o` of tile n's scratchpad. -/
def State.spWord (s : State) (n o : Nat) : Nat :=
  match s.stripeOf n (o / 65536) with
  | some (_, f, k) =>
    let w := (o - f * 65536) / 64
    (f + w % k) * 1024 + w / k
  | none => o / 65536 * 1024 + o % 65536 / 64

/-- The offset at which a word of tile n is addressed. -/
def State.spOffset (s : State) (n w : Nat) : Nat :=
  match s.stripeOf n (w / 1024) with
  | some (_, f, k) => f * 65536 + (w % 1024 * k + (w / 1024 - f)) * 64
  | none => w * 64

/-- Owner code of bank b (Table 10-1), of the majority of the map's copies (R68). -/
def State.owner (s : State) (n b : Nat) : Nat :=
  s.getF (Reg.TILE n (Reg.TILE_OWNER_MAP0 + 4 * (b / 8))) (4 * (b % 8) + 2) (4 * (b % 8))

/-- Owner of the bank that holds word w. -/
def State.ownerOf (s : State) (n w : Nat) : Nat := s.owner n (w / 1024)

def oNone : Nat := 0
def oSeq : Nat := 1
def oFeed : Nat := 2
def oBuck : Nat := 3
def oSkid : Nat := 4
def oCache : Nat := 5

/-- A tag operation is admitted to banks owned by SEQ, FEED, BUCK or SKID (R328). -/
def tagAdmits (o : Nat) : Bool := decide (1 ≤ o ∧ o ≤ 4)

/-- Requester codes of TILE_REFUSE.REQ. -/
def rqSeq : Nat := 0
def rqVec : Nat := 1
def rqFeed : Nat := 2
def rqBuck : Nat := 3
def rqChip : Nat := 4
def rqSkid : Nat := 5
def rqMesh : Nat := 6
def rqYard : Nat := 7
def rqTag : Nat := 8

/-- Mask and new owner of a TILE_OWNER write. -/
def ownMask (v : Word) : Nat := fld v 15 0
def ownNew (v : Word) : Nat := fld v 18 16

/-- Does the handover in progress on tile n hold the accesses of its new owner `o` to the bank of word w, those of work begun
before it among them (Table 10-2, step 1; Table 10-6). -/
def State.newHolds (s : State) (n w o : Nat) : Bool :=
  match (s.tile n).handovers with
  | h :: _ =>
    h.started && (ownMask h.word).testBit (w / 1024) && ownNew h.word == o && s.ownerOf n w != o
  | [] => false

/-- Does the handover in progress on tile n hold accesses by owner `o` to the bank of word w (Table 10-2, step 1). -/
def State.handoverHolds (s : State) (n w o : Nat) : Bool :=
  match (s.tile n).handovers with
  | h :: _ =>
    h.started && (ownMask h.word).testBit (w / 1024) && s.ownerOf n w != ownNew h.word &&
      (s.ownerOf n w == o || ownNew h.word == o)
  | [] => false

/-- INIT_BUSY of tile n. -/
def State.initBusy (s : State) (n : Nat) : Bool := s.bit (Reg.TILE n Reg.TILE_SP_STAT) 9

/-! ### The error log (R622) -/

/-- Log an error of a bank word or macro row; a full log counts it lost. -/
def State.logError (s : State) (l0 l1 : Nat) : State :=
  if 256 ≤ s.errLog.length then { s.count Reg.INTEG_LOG_LOST with errLostSec := s.errLostSec + 1 }
  else { s with errLog := s.errLog ++ [⟨BitVec.ofNat 32 l0, BitVec.ofNat 32 l1,
      BitVec.ofNat 32 (s.timeNow / 2 ^ 16)⟩] }

/-- Log an error of a scratchpad word. -/
def State.logWord (s : State) (n w lane : Nat) (scrub ue : Bool) : State :=
  s.logError (w % 1024 + 2 ^ 12 * lane + 2 ^ 16 * (w / 1024) + 2 ^ 20 * n + 2 ^ 29 * b2n scrub + 2 ^ 30 * b2n ue) 0

/-! ### Words (R320, R611, R760) -/

/-- SECDED state of word w of tile n. -/
def State.wmark (s : State) (n w : Nat) : WMark := s.spMark.get {} (n * 16384 + w)
/-- Store it. -/
def State.setMark (s : State) (n w : Nat) (m : WMark) : State := { s with spMark := s.spMark.set {} (n * 16384 + w) m }
/-- The 64 bytes of a word as stored. -/
def State.wordBytes (s : State) (n w : Nat) : List Byte := s.spad.getMany 0 (n * 1048576 + w * 64) 64
/-- A write of all 64 bytes: it replaces poison and every error (R611). -/
def State.putWord (s : State) (n w : Nat) (bs : List Byte) : State :=
  { s with spad := s.spad.setMany 0 (n * 1048576 + w * 64) (bs.take 64), spMark := s.spMark.set {} (n * 16384 + w) {} }
/-- Write a word with the poison pattern: every lane holds data 0 (R611). -/
def State.poisonWord (s : State) (n w : Nat) : State :=
  (s.putWord n w (List.replicate 64 0)).setMark n w { poison := true }

/-- Correct the lanes of a word that hold one flipped bit: counted and logged once for the word, under the lowest of them
(R760, R622; log 67). -/
def State.correctLanes (s : State) (n w : Nat) (scrub : Bool) : State :=
  match bitsSet (s.wmark n w).ones.toNat 8 with
  | [] => s
  | l :: _ => ((s.count Reg.INTEG_SP_CE).logWord n w l scrub false).setMark n w { (s.wmark n w) with ones := 0 }

/-- A fresh uncorrectable word is counted, logged under the lowest lane that makes it so (log 67) and written back with the
poison pattern (R611, R622). -/
def State.poisonFresh (s : State) (n w : Nat) (scrub : Bool) : State :=
  ((s.count Reg.INTEG_SP_UE).logWord n w ((bitsSet (s.wmark n w).bad.toNat 8).headD 0) scrub true).poisonWord n w

/-- A demand read of a word by requester `rq`: its bytes, whether they are poison, and the word repaired (R611, R760);
event 0x2051 for a fresh uncorrectable word. -/
def State.readWord (s : State) (n w rq : Nat) : List Byte × Bool × State :=
  let m := s.wmark n w
  if m.poison then (List.replicate 64 0, true, s)
  else if m.ue then
    (List.replicate 64 0, true,
      (s.poisonFresh n w false).raise 0x2051 n (s.spOffset n w + 2 ^ 20 * (w / 1024) + 2 ^ 24 * rq))
  else (s.wordBytes n w, false, if m.ones = 0 then s else s.correctLanes n w false)

/-- Bytes of a list replaced from `lo` where `en` marks them. -/
def mergeBytes (old : List Byte) (en : BitVec 64) (new : List Byte) : List Byte :=
  (List.range 64).map fun i => if en.getLsbD i then new.getD i 0 else old.getD i 0

/-- The byte enables of `len` bytes from `lo` of a word. -/
def enables (lo len : Nat) : BitVec 64 := BitVec.ofNat 64 ((2 ^ len - 1) <<< lo)

/-- Write some bytes of a word at its bank: a read, a merge and a write; a poisoned word stays poisoned (R353). -/
def State.mergeWord (s : State) (n w rq : Nat) (en : BitVec 64) (new : List Byte) : State :=
  if en = BitVec.allOnes 64 then s.putWord n w new
  else
    let (old, p, s) := s.readWord n w rq
    if p then s else s.putWord n w (mergeBytes old en new)

/-- Bytes `lo` to `lo + len - 1` of a word placed in 64 bytes. -/
def placeAt (lo : Nat) (bs : List Byte) : List Byte := List.replicate lo 0 ++ bs

/-! ### Tags (R322, R345) -/

/-- The full/empty tag of a word: the majority of its three copies. -/
def State.tag (s : State) (n w : Nat) : Bool := decide (2 ≤ popc (s.spTag.get 0 (n * 16384 + w)).toNat 3)
/-- Write all three copies of a tag. -/
def State.setTag (s : State) (n w : Nat) (full : Bool) : State :=
  { s with spTag := s.spTag.set 0 (n * 16384 + w) (if full then 7 else 0) }
/-- The chip meets the copies of a tag: where they disagree, the majority is written back into all three (R322). -/
def State.fixTag (s : State) (n w : Nat) : State :=
  let c := s.spTag.get 0 (n * 16384 + w)
  if c = 0 ∨ c = 7 then s else s.setTag n w (s.tag n w)
/-- Copies of a tag flip. -/
def State.upsetTag (s : State) (n w : Nat) (flips : BitVec 3) : State :=
  { s with spTag := s.spTag.set 0 (n * 16384 + w) (s.spTag.get 0 (n * 16384 + w) ^^^ flips) }

/-! ### Refusals (R331, R527) -/

/-- Record a refusal in TILE_REFUSE, count it and raise event 0x2030 at most once per 1 ms (R331). -/
def State.recordRefusal (s : State) (n offset bank owner rq : Nat) (gated : Bool) : State :=
  let v := offset % 2 ^ 20 + 2 ^ 20 * owner + 2 ^ 23 * rq + 2 ^ 27 * b2n gated + 2 ^ 31
  let s := (s.wr (Reg.TILE n Reg.TILE_REFUSE) (BitVec.ofNat 32 v)).count (Reg.TILE n Reg.TILE_REFUSE_CNT)
  s.raiseLim 0x2030 n fun k =>
    offset % 2 ^ 20 + 2 ^ 20 * bank + 2 ^ 24 * owner + 2 ^ 27 * b2n gated + 2 ^ 28 * rq + 2 ^ 32 * k

/-- Refuse an access of requester `rq`; `o` is the offset of its first byte in the bank that refuses it (log 82). -/
def State.refuseAt (s : State) (n o rq : Nat) : State :=
  s.recordRefusal n (o % 2 ^ 20) (s.spWord n o / 1024) (s.ownerOf n (s.spWord n o)) rq false

/-- Refuse an access of requester `rq` to all of word w. -/
def State.refuseWord (s : State) (n w rq : Nat) : State :=
  s.recordRefusal n (s.spOffset n w) (w / 1024) (s.ownerOf n w) rq false

/-! ### The gather buffer (R335 to R339) -/

/-- The entry of a word, if the buffer holds one. -/
def gbFind (gb : List GbEntry) (w : Nat) : Option GbEntry := gb.find? fun e => e.word == w
/-- The buffer without a word's entry. -/
def gbWithout (gb : List GbEntry) (w : Nat) : List GbEntry := gb.filter fun e => e.word != w

/-- Write an entry's dirty bytes back to its bank; the gather buffer reads for a partial one (R336, R353). -/
def State.gbWriteBack (s : State) (n : Nat) (e : GbEntry) : State :=
  if e.dirty = 0 then s else s.mergeWord n e.word rqSeq e.dirty e.data

/-- Write back the entry of a word, if there is one; its bytes stay, clean (R336, R338, R339), but for a write-back whose
bytes are lost to poison (R353). -/
def State.gbClean (s : State) (n w : Nat) : State :=
  match gbFind (s.tile n).gb w with
  | none => s
  | some e =>
    let s := s.gbWriteBack n e
    if (s.wmark n w).poison then s.modTile n fun t => { t with gb := gbWithout t.gb w }
    else s.modTile n fun t =>
      { t with gb := t.gb.map fun (x : GbEntry) => if x.word = w then { x with dirty := 0 } else x }

/-- Write back and drop the entry of a word, if there is one (R336, R339). -/
def State.gbFlush (s : State) (n w : Nat) : State :=
  match gbFind (s.tile n).gb w with
  | none => s
  | some e => (s.gbWriteBack n e).modTile n fun t => { t with gb := gbWithout t.gb w }

/-- Write back and drop every entry whose bank a mask selects. -/
def State.gbFlushBanks (s : State) (n mask : Nat) : State :=
  ((s.tile n).gb.filter fun e => mask.testBit (e.word / 1024)).foldl (fun s e => s.gbFlush n e.word) s

/-- Put an entry at the most recent place, evicting the least recently used of 8 (R336). -/
def State.gbPut (s : State) (n : Nat) (e : GbEntry) : State :=
  let rest := gbWithout (s.tile n).gb e.word
  if rest.length < 8 then s.modTile n fun t => { t with gb := e :: rest }
  else
    match rest.getLast? with
    | some old => (s.gbWriteBack n old).modTile n fun t => { t with gb := e :: rest.dropLast }
    | none => s

/-- A narrow read of `len` bytes at `lo` of a word through the gather buffer (R337): the bytes, or poison. -/
def State.gbRead (s : State) (n w lo len rq : Nat) : List Byte × Bool × State :=
  let en := enables lo len
  match gbFind (s.tile n).gb w with
  | some e =>
    if e.valid &&& en = en then ((e.data.drop lo).take len, false, s.gbPut n e)
    else
      let (bs, p, s) := s.readWord n w rq
      if p then (List.replicate len 0, true, s)
      else
        let d := mergeBytes bs e.valid e.data
        ((d.drop lo).take len, false, s.gbPut n { e with data := d, valid := BitVec.allOnes 64 })
  | none =>
    let (bs, p, s) := s.readWord n w rq
    if p then (List.replicate len 0, true, s)
    else ((bs.drop lo).take len, false, s.gbPut n ⟨w, bs, BitVec.allOnes 64, 0⟩)

/-- A narrow write through the gather buffer (R336): it merges into the word's entry, or allocates one without reading
the bank; an entry that is dirty in all 64 bytes is written to its bank. -/
def State.gbWrite (s : State) (n w lo : Nat) (bs : List Byte) : State :=
  let en := enables lo bs.length
  let e := match gbFind (s.tile n).gb w with
    | some e => e
    | none => ⟨w, List.replicate 64 0, 0, 0⟩
  let e : GbEntry := ⟨w, mergeBytes e.data en (placeAt lo bs), e.valid ||| en, e.dirty ||| en⟩
  if e.dirty = BitVec.allOnes 64 then (s.putWord n w e.data).gbPut n { e with dirty := 0 } else s.gbPut n e

/-! ### Full/empty operations at a bank (R195, R196, R197, R338) -/

/-- Data an FE.WRITE places at the bank: 64 bytes, or bytes 0 to 7 with the rest of the slot kept, or the poison pattern for
poisoned data; no entry keeps the old bytes (R338). -/
def State.feStore (s : State) (n w : Nat) (bs : List Byte) (poison : Bool := false) : State :=
  if poison then (s.gbFlush n w).poisonWord n w else (s.gbFlush n w).mergeWord n w rqTag (enables 0 bs.length) bs

/-- FE.READ of a full slot: its data, whether poisoned, and the slot empty (R195, R197). -/
def State.feTake (s : State) (n w : Nat) : List Byte × Bool × State :=
  let (bs, p, s) := s.readWord n w rqTag
  (bs, p, s.setTag n w false)

/-- Write the data of a full/empty or load result to its destination registers. -/
def Core.deliver (x : Core) (d : Dst) (bs : List Byte) (full : Bool) : Core :=
  match d with
  | .scalar rd k sg =>
    let v := leNat (bs.take k)
    x.setS rd (if sg then BitVec.ofInt 64 (sInt (8 * k) v) else BitVec.ofNat 64 v)
  | .vector vd m =>
    let old := x.vreg vd
    x.setV vd (forN 64 (fun i (w : BitVec 2048) =>
      if m.getLsbD i then setFld w (32 * i + 31) (32 * i) (leAt bs (4 * i) 4) else w) old)
  | .slotV vd => x.setV vd (setFld (x.vreg vd) 511 0 (leNat (bs.take 64)))
  | .peek sc rd tr =>
    let x := if sc then x.setS rd (BitVec.ofNat 64 (leNat (bs.take 8)))
      else x.setV rd (setFld (x.vreg rd) 511 0 (leNat (bs.take 64)))
    x.setS tr (BitVec.ofNat 64 (b2n full))
  | .none => x

/-- The blocked instruction of a core completes with its data: the destination is written, except from poison, which
raises 0x08 (R175, R197); then execution goes on. -/
def State.completeWait (s : State) (c : CoreId) (d : Dst) (addr : Nat) (bs : List Byte) (p full : Bool) : State :=
  if p then (s.modCore c fun x => { x with wait := .none }).precise c 0x08 (BitVec.ofNat 64 addr)
  else (s.modCore c fun x => x.deliver d bs full).retire c

/-- The answer to a transaction is on its way. -/
def State.answer (s : State) (tag : Nat) (r : Resp) : State :=
  match s.txns.get none tag with
  | some t => { s with txns := s.txns.set none tag (some { t with st := .answered r }) }
  | none => s

/-- A served waiter of tile n gets its result: through the response to its tag, or at once on the own tile; a Skidder
queue takes it up when it goes on. -/
def State.serveWaiter (s : State) (n : Nat) (wt : Waiter) (bs : List Byte) (p : Bool) : State :=
  match wt.tag with
  | some tg => s.answer tg (if wt.write.isSome then .ack else .data bs p true)
  | none =>
    match wt.origin with
    | .load =>
      if h : n < 144 then
        let c := CoreId.tile ⟨n, h⟩
        match (s.core c).wait with
        | .fe addr _ d _ _ _ => s.completeWait c d addr bs p true
        | _ => s
      else s
    | .skid q => s.modTile n fun t =>
        { t with skq := t.skq.set {} q { t.skq.get {} q with wait := none, got := some (bs, p) } }
    | _ => s

/-- Serve the waiters of word w of tile n in arrival order as long as one can proceed (R196): `fuel` bounds the
number of waiters. -/
def State.serveWaiters (s : State) (n w : Nat) : Nat → State
  | 0 => s
  | fuel + 1 =>
    let t := s.tile n
    match t.waiters.find? fun x => x.word == w && (x.write.isSome != s.tag n w) with
    | none => s
    | some wt =>
      let s := s.modTile n fun t => { t with waiters := t.waiters.erase wt }
      match wt.write with
      | some bs => ((s.feStore n w bs wt.poison).setTag n w true |>.serveWaiter n wt [] false).serveWaiters n w fuel
      | none =>
        let (bs, p, s) := s.feTake n w
        (s.serveWaiter n wt bs p).serveWaiters n w fuel

/-- After a tag of tile n changed, its waiters are served; the list holds at most 16 (R196). -/
def State.slotChanged (s : State) (n w : Nat) : State := s.serveWaiters n w 17

/-- The result of a full/empty operation at a bank. -/
inductive FeRes where
  | done (bytes : List Byte) (poison full : Bool)
  /-- the slot is full (write) or empty (read) -/
  | notReady
  /-- the bank's owner does not take it -/
  | refused
  deriving DecidableEq, Repr

/-- A full/empty operation at word w of tile n (R195, R328), of poisoned data or not: admission by the owner, then its effect;
the word's gather-buffer entry is written back first (R338). -/
def State.feAt (s : State) (n w : Nat) (op : TOp) (poison : Bool := false) : FeRes × State :=
  let s := s.ownerUse n
  if !tagAdmits (s.ownerOf n w) then (.refused, s.refuseWord n w rqTag)
  else
    let s := (s.gbClean n w).fixTag n w
    match op with
    | .feRead _ =>
      if s.tag n w then
        let (bs, p, s) := s.feTake n w
        (.done bs p true, s.slotChanged n w)
      else (.notReady, s)
    | .feWrite d =>
      if s.tag n w then (.notReady, s)
      else (.done [] false true, ((s.feStore n w d poison).setTag n w true).slotChanged n w)
    | .fePeek =>
      let (bs, p, s) := s.readWord n w rqTag
      (.done bs p (s.tag n w), s)
    | .feSet => (.done [] false true, (s.setTag n w true).slotChanged n w)
    | .feClear => (.done [] false false, (s.setTag n w false).slotChanged n w)
    | _ => (.refused, s)

/-- Enter a waiter in the list of tile n if it holds fewer than 16 (R196). -/
def State.addWaiter (s : State) (n : Nat) (wt : Waiter) : Option State :=
  if (s.tile n).waiters.length < 16 then
    some (s.modTile n fun t => { t with waiters := t.waiters ++ [wt] })
  else none

/-! ### Plain remote accesses at a tile (R327, R329, R330) -/

/-- The offsets at which an access of `len` bytes at offset `o` enters each word it touches. -/
def wordStarts (o len : Nat) : List Nat :=
  (List.range ((o % 64 + len + 63) / 64)).map fun i => max o (o / 64 * 64 + 64 * i)

/-- A remote plain read of `len` bytes at offset `o`, 16 bytes or a word at a time, through the gather buffer: refused
unless every bank is SEQ's.  `rq` says whether it came by mesh or by Yarder. -/
def State.remoteRead (s : State) (n o len rq : Nat) : Option (List Byte × Bool) × State :=
  let s := s.ownerUse n
  let os := wordStarts o len
  let ws := os.map (s.spWord n)
  match os.find? fun x => s.ownerOf n (s.spWord n x) != oSeq with
  | some x => (none, s.refuseAt n x rq)
  | none =>
    let step := fun (acc : List Byte × Bool × State) (i : Nat) =>
      let (bs, p, s) := acc
      let lo := if i = 0 then o % 64 else 0
      let k := min (64 - lo) (len - bs.length)
      let (b, p', s) := s.gbRead n (ws.getD i 0) lo k rq
      (bs ++ b, p || p', s)
    let (bs, p, s) := (List.range ws.length).foldl step ([], false, s)
    (some (bs, p), s)

/-- A remote plain write of runs of bytes at offsets of tile n: refused unless every bank is SEQ's (R330).  Each run lies
within one 64-byte word. -/
def State.remoteWrite (s : State) (n : Nat) (segs : List (Nat × List Byte)) (rq : Nat) : Bool × State :=
  let s := s.ownerUse n
  match segs.find? fun g => s.ownerOf n (s.spWord n g.1) != oSeq with
  | some g => (false, s.refuseAt n g.1 rq)
  | none => (true, segs.foldl (fun s g => s.gbWrite n (s.spWord n g.1) (g.1 % 64) g.2) s)

end Sys2Proof.Machine
end

