-- ==== Sys2Proof/Machine/Hbm.lean ====
section
/-! DEFINITION. The HBM stacks (chapter 11): address decoding, controller ECC and poison, partial writes, refusals. -/

namespace Sys2Proof.Machine
open Sys2Proof

/-- 48 GiB of HBM (Table 3-7). -/
def hbmSize : Nat := 0xC00000000

/-- Table 11-1: pseudo-channel and offset within it of a local address, under HBM0_CTRL.INTLV (R361). -/
def State.hbmDecode (s : State) (a : Nat) : Nat × Nat :=
  match s.getF (Reg.HBM 0 Reg.HBM_CTRL) 1 0 with
  | 0 => (a / 256 % 64, a / 16384 * 256 + a % 256)
  | 1 => (a / 4096 % 64, a / 262144 * 4096 + a % 4096)
  | _ =>
    let st := if a < 0x600000000 then 0 else 1
    let a' := a - st * 0x600000000
    (32 * st + a' / 256 % 32, a' / 8192 * 256 + a' % 256)

/-- The byte key of a local address. -/
def State.hbmKey (s : State) (a : Nat) : Nat := let (q, o) := s.hbmDecode a; q * 2 ^ 30 + o
/-- The word key of a byte key. -/
def hbmWordKey (k : Nat) : Nat := k / 2 ^ 30 * 2 ^ 24 + k % 2 ^ 30 / 64
/-- The stack of a local address. -/
def State.hbmStack (s : State) (a : Nat) : Nat := (s.hbmDecode a).1 / 32

/-- The bank of an offset within a pseudo-channel (R362): SID, bank group and bank. -/
def hbmBank (o : Nat) : Nat := o / 2 ^ 28 * 16 + o / 2 ^ 10 % 4 * 4 + o / 2 ^ 12 % 4

/-- Controller i beyond its registers. -/
def State.ctl (s : State) (i : Nat) : HbmCtl := s.hbmCtl.get {} i
def State.setCtl (s : State) (i : Nat) (c : HbmCtl) : State := { s with hbmCtl := s.hbmCtl.set {} i c }
def State.modCtl (s : State) (i : Nat) (f : HbmCtl → HbmCtl) : State := s.setCtl i (f (s.ctl i))

/-- Does controller i take requests (R377): INIT_DONE 1, IN_SR 0 and no entry or exit in progress. -/
def State.hbmReady (s : State) (i : Nat) : Bool :=
  let st := s.rd (Reg.HBM i Reg.HBM_STAT)
  st.getLsbD 1 && !st.getLsbD 2 && (s.ctl i).seq.isNone

/-- A request to a controller that does not take it: event 0x2046 at most once per 1 ms (R377). -/
def State.hbmRefuse (s : State) (a : Nat) : State :=
  s.raiseLim 0x2046 (s.hbmStack a) fun k => a % 2 ^ 40 + 2 ^ 48 * k

/-- One activate of the word's bank; at the stack's threshold the controller issues refresh management (R368). -/
def State.hbmActivate (s : State) (a : Nat) : State :=
  let (q, o) := s.hbmDecode a
  let i := q / 32
  let k := q % 32 * 64 + hbmBank o
  let c := s.ctl i
  let n := c.acts.get 0 k + 1
  if c.rfm ≠ 0 ∧ c.rfm ≤ n then (s.setCtl i { c with acts := c.acts.set 0 k 0 }).emit (.dramRfm i (q % 32))
  else s.setCtl i { c with acts := c.acts.set 0 k n }

/-- Count a corrected word (R364, R379). -/
def State.hbmCorrected (s : State) (i : Nat) : State :=
  (s.count (Reg.HBM i Reg.HBM_CE_CNT)).modCtl i fun c => { c with hourCe := c.hourCe + 1 }

/-- A fresh uncorrectable word of local address a: counted, recorded, its event raised, and written back with the poison
check pattern (R365, R366). -/
def State.hbmPoisonFresh (s : State) (a event : Nat) : State :=
  let i := s.hbmStack a
  let k := s.hbmKey a
  let s := s.count (Reg.HBM i Reg.HBM_UE_CNT)
  let s := s.wr (Reg.HBM i Reg.HBM_ERR_ADDR_LO) (BitVec.ofNat 32 a)
  let s := s.wr (Reg.HBM i Reg.HBM_ERR_ADDR_HI) (BitVec.ofNat 32 (a / 2 ^ 32 % 256 + 2 ^ 31))
  let s := { s with hbm := s.hbm.setMany 0 k (List.replicate 64 0),
                    hbmMark := s.hbmMark.set {} (hbmWordKey k) { poison := true } }
  s.raise event i (a % 2 ^ 40)

/-- Read the aligned 64-byte word at local address a: bytes, poison, and the word repaired (R364, R365). -/
def State.hbmReadWord (s : State) (a : Nat) : List Byte × Bool × State :=
  let a := a / 64 * 64
  let k := s.hbmKey a
  let m := s.hbmMark.get {} (hbmWordKey k)
  let s := s.hbmActivate a
  if m.poison then (List.replicate 64 0, true, s)
  else if m.ue then (List.replicate 64 0, true, s.hbmPoisonFresh a 0x2041)
  else
    let s := if m.ones = 0 then s
      else { s.hbmCorrected (s.hbmStack a) with hbmMark := s.hbmMark.set {} (hbmWordKey k) {} }
    (s.hbm.getMany 0 k 64, false, s)

/-- Write bytes of one 64-byte word at local address a; a write of fewer than 64 bytes reads, merges and writes, and
leaves a poisoned word poisoned (R360, R365). -/
def State.hbmWriteWord (s : State) (a : Nat) (bs : List Byte) : State :=
  let k := s.hbmKey a
  if a % 64 = 0 ∧ bs.length = 64 then
    let s := s.hbmActivate a
    { s with hbm := s.hbm.setMany 0 k bs, hbmMark := s.hbmMark.set {} (hbmWordKey k) {} }
  else
    let (_, p, s) := s.hbmReadWord a
    if p then s else { s with hbm := s.hbm.setMany 0 k bs }

/-- Does every controller that the words of a range lie on take requests. -/
def State.hbmRangeReady (s : State) (a len : Nat) : Option Nat :=
  ((List.range ((a % 64 + len + 63) / 64)).map fun i => a / 64 * 64 + 64 * i).find? fun b => !s.hbmReady (s.hbmStack b)

/-- Read `len` bytes of HBM at a: refused (`none`) where a controller does not take requests. -/
def State.hbmRead (s : State) (a len : Nat) : Option (List Byte × Bool) × State :=
  match s.hbmRangeReady a len with
  | some b => (none, s.hbmRefuse b)
  | none =>
    let step := fun (acc : List Byte × Bool × State) (i : Nat) =>
      let (bs, p, s) := acc
      let (b, p', s) := s.hbmReadWord (a / 64 * 64 + 64 * i)
      (bs ++ b, p || p', s)
    let (bs, p, s) := (List.range ((a % 64 + len + 63) / 64)).foldl step ([], false, s)
    (some ((bs.drop (a % 64)).take len, p), s)

/-- Write runs of bytes of HBM, each within one 64-byte word, at offsets from a: refused where a controller does not
take requests. -/
def State.hbmWrite (s : State) (a : Nat) (segs : List (Nat × List Byte)) : Bool × State :=
  match segs.find? fun g => !s.hbmReady (s.hbmStack (a + g.1)) with
  | some g => (false, s.hbmRefuse (a + g.1))
  | none => (true, segs.foldl (fun s g => s.hbmWriteWord (a + g.1) g.2) s)

end Sys2Proof.Machine
end

