-- ==== Sys2Proof/Machine/Choker.lean ====
section
/-! DEFINITION. The Choker (chapter 12): tags, quotas and reserves, and which tiles can be reached. -/

namespace Sys2Proof.Machine
open Sys2Proof

/-- The outstanding transactions with their tags. -/
def State.txnList (s : State) : List (Nat × Txn) :=
  s.txns.filterMap fun p => p.2.map fun t => (p.1, t)

/-- Those whose tags are held: a tag freed by expiry or cancel no longer is (R396 to R398). -/
def State.tagList (s : State) : List (Nat × Txn) := s.txnList.filter fun p => !p.2.freed

/-- HELD of an agent: the tags it holds, orphans included (R395, R405). -/
def State.held (s : State) (agent : Nat) : Nat := (s.tagList.filter fun p => p.2.agent == agent).length
/-- Orphans of a tile. -/
def State.orphans (s : State) (agent : Nat) : Nat := (s.tagList.filter fun p => p.2.agent == agent && p.2.orphan).length

/-- The most tags an agent may hold: a tile's quota, 256 for a Ranger core, 1,024 for Landing (R394, R395). -/
def State.tagLimit (s : State) (agent : Nat) : Nat :=
  if agent < 144 then s.getF (Reg.CHOKER_QUOTA agent) 16 0 else if agent < 148 then 256 else 1024

/-- May an agent take a tag now (R395). -/
def State.mayIssue (s : State) (agent : Nat) : Bool := decide (s.held agent < s.tagLimit agent)

/-- The lowest tag that no transaction holds. -/
def lowestFree : List (Nat × Txn) → Nat → Nat
  | [], k => k
  | (t, _) :: r, k => if t = k then lowestFree r (k + 1) else k

/-- A transaction takes a tag; the pool is never short, since the quotas and the reserve fill it (R394). -/
def State.newTxn (s : State) (t : Txn) : Nat × State :=
  let tag := lowestFree s.txnList 0
  (tag, { s with txns := s.txns.set none tag (some { t with born := s.now, ord := s.txnOrd }), txnOrd := s.txnOrd + 1 })

/-- A tag is released. -/
def State.freeTag (s : State) (tag : Nat) : State := { s with txns := s.txns.set none tag none }

/-- The transaction that holds a tag. -/
def State.txn (s : State) (tag : Nat) : Option Txn := s.txns.get none tag
/-- Change it. -/
def State.setTxn (s : State) (tag : Nat) (t : Txn) : State := { s with txns := s.txns.set none tag (some t) }

/-- A transaction of a tile waited on a full quota: CHOKER_STALLn counts it (R395). -/
def State.quotaStall (s : State) (agent : Nat) : State :=
  if agent < 144 then s.count (Reg.CHOKER_STALL agent) else s

/-- Every tag of a tile becomes an orphan, and its held full/empty requests are cancelled at their targets, so that their
orphans drain by expiry (R397, R405). -/
def State.orphanTags (s : State) (agent : Nat) : State :=
  let s := { s with txns := s.txns.map fun (p : Nat × Option Txn) =>
    (p.1, p.2.map fun (t : Txn) =>
      if t.agent = agent then
        { t with orphan := true, noticed := false, st := if t.st = TxnState.held then .lost else t.st }
      else t) }
  { s with tiles := s.tiles.map fun (p : Nat × Tile) =>
      (p.1, { p.2 with waiters := p.2.waiters.filter fun w => !(w.agent == agent && w.tag.isSome) }) }

/-- The bytes an operation at an address touches. -/
def TOp.span : TOp → Nat
  | .read n => n
  | .write segs => segs.foldl (fun m g => max m (g.1 + g.2.length)) 0
  | _ => 64

/-- Is an older transaction of the same agent, to overlapping bytes, still to take effect (R112). -/
def State.olderFirst (s : State) (t : Txn) : Bool :=
  s.tagList.any fun p =>
    p.2.agent == t.agent && decide (p.2.ord < t.ord) && p.2.st == .sent &&
      decide (p.2.addr < t.addr + t.op.span ∧ t.addr < p.2.addr + p.2.op.span)

/-! ### Reaching a tile (R51, R527) -/

/-- PWR_TGATED bit of tile n. -/
def State.gated (s : State) (n : Nat) : Bool := s.bit (Reg.PWR_TGATED (n / 32)) (n % 32)

/-- QSTATE of quadrant q. -/
def State.qstate (s : State) (q : Nat) : Nat := s.getF (Reg.PWR_Q_STAT q) 2 0

/-- Is the quadrant of tile n at an operating point. -/
def State.quadRuns (s : State) (n : Nat) : Bool := decide (s.qstate (quadOf n) = 0)

/-- Are tile n's scratchpad and macros reachable. -/
def State.reachable (s : State) (n : Nat) : Bool := s.quadRuns n && !s.gated n

/-- Does an operation use a tag (R328). -/
def TOp.isFe : TOp → Bool
  | .read _ => false
  | .write _ => false
  | _ => true

/-- Does tile n hold a request at offset o back: its banks are being initialised, or a handover holds the bank (R357,
Table 10-2). -/
def State.spBusy (s : State) (n o : Nat) (op : TOp) : Bool :=
  let w := s.spWord n o
  s.reachable n && (s.initBusy n || s.handoverHolds n w (if op.isFe then s.ownerOf n w else oSeq))

/-- A request of agent `who` to an unreachable tile n is refused: by the router with event 0x3110 at most once per 1 ms
(R51), or by the gated tile, which records it (R527). -/
def State.refuseUnreachable (s : State) (n offset who rq la : Nat) (dbgWin : Bool) : State :=
  if s.quadRuns n then
    let w := s.spWord n (offset % 2 ^ 20)
    s.recordRefusal n offset (if dbgWin then 0 else w / 1024) (if dbgWin then 0 else s.ownerOf n w) rq true
  else s.raiseLim 0x3110 n fun k => la % 2 ^ 40 + 2 ^ 40 * (who % 256) + 2 ^ 48 * k

end Sys2Proof.Machine
end

