-- ==== Sys2Proof/Machine/Macro.lean ====
section
/-! DEFINITION. The bit-serial macros of a tile (chapter 07): rows, weights, checksum lane, passes, loads, health and
debug window. -/

namespace Sys2Proof.Machine
open Sys2Proof

/-- The key of a row, of a row-group and of a macro. -/
def rowKey (n m r : Nat) : Nat := (n * 16 + m) * 4096 + r
def rgKey (n m rg : Nat) : Nat := (n * 16 + m) * 32 + rg
def macKey (n m : Nat) : Nat := n * 16 + m

/-- Stored columns 0 to 143 of a row: what was written, with the cells that flipped since.  The check bits of columns 144 to
152 follow from what was written (R222); only which of them flipped is kept. -/
def State.rowBits (s : State) (n m r : Nat) : BitVec 144 :=
  s.mrow.get 0 (rowKey n m r) ^^^ (s.mflip.get 0 (rowKey n m r)).setWidth 144

/-- Write a row: its SECDED columns follow (R222). -/
def State.putRow (s : State) (n m r : Nat) (b : BitVec 144) : State :=
  { s with mrow := s.mrow.set 0 (rowKey n m r) b, mflip := s.mflip.drop (rowKey n m r) }

/-- What MLOAD recorded of a row-group (R185). -/
def State.rg (s : State) (n m rg : Nat) : RgRec := s.rgRec.get {} (rgKey n m rg)
def State.setRg (s : State) (n m rg : Nat) (r : RgRec) : State := { s with rgRec := s.rgRec.set {} (rgKey n m rg) r }

/-- Forget the recorded W of row-groups lo to lo + k - 1. -/
def State.unrecord (s : State) (n m lo k : Nat) : State := { s with rgRec := s.rgRec.clear (rgKey n m lo) k }

/-! ### Weights (R224 to R227) -/

/-- The value of `w` bits of a row from column `lo`, two's complement. -/
def colInt (b : BitVec 144) (lo w : Nat) : Int := sInt w (b.toNat >>> lo)

/-- Weight of channel c in a row at weight width w. -/
def weightOf (b : BitVec 144) (w c : Nat) : Int := colInt b (w * c) w

/-- Channels of a macro at weight width w (R224). -/
def chans (w : Nat) : Nat := 128 / w

/-- The row with the checksum of its weights at width w in its lane (R226). -/
def withLane (b : BitVec 144) (w : Nat) : BitVec 144 :=
  let k := (List.range (chans w)).foldl (fun (x : Int) c => x + weightOf b w c) 0
  setFld b 143 128 (BitVec.ofInt 16 k).toNat

/-! ### Health (R616, R618) -/

def rgGood : Nat := 0
def rgSuspect : Nat := 1
def rgLost : Nat := 2
def rgFailed : Nat := 3

/-- Health of a row-group. -/
def State.healthOf (s : State) (n m rg : Nat) : Nat := (s.health.get 0 (rgKey n m rg)).toNat

/-- Set it; a change raises event 0x2054 (R616). -/
def State.setHealth (s : State) (n m rg h : Nat) : State :=
  if s.healthOf n m rg = h then s
  else { s with health := s.health.set 0 (rgKey n m rg) (BitVec.ofNat 2 h) }.raise 0x2054 n (m + 16 * rg + 512 * h)

/-- Change the counts of a macro. -/
def State.countMac (s : State) (n m : Nat) (f : MacCnt → MacCnt) : State :=
  { s with macCnt := s.macCnt.set {} (macKey n m) (f (s.macCnt.get {} (macKey n m))) }

/-- Log an error of a macro row (R622). -/
def State.logRow (s : State) (n m r col : Nat) (scrub ue : Bool) : State :=
  s.logError (r % 1024 + 2 ^ 10 * (r / 1024) + 2 ^ 16 * m + 2 ^ 20 * n + 2 ^ 28 + 2 ^ 29 * b2n scrub + 2 ^ 30 * b2n ue)
    col

/-- Read a row through SECDED (R188, R242, R617): a single flipped bit is corrected, written back, counted and logged; an
uncorrectable row sets its row-group LOST unless it is LOST or FAILED, and raises event 0x2052. -/
def State.readRow (s : State) (n m r : Nat) (scrub : Bool) : Option (BitVec 144) × State :=
  let f := s.mflip.get 0 (rowKey n m r)
  let cols := bitsSet f.toNat 153
  match cols with
  | [] => (some (s.rowBits n m r), s)
  | [c] =>
    let b := s.mrow.get 0 (rowKey n m r)
    let s := s.putRow n m r b
    let s := (s.count Reg.INTEG_MC_CE).countMac n m fun (x : MacCnt) => { x with ce := satInc x.ce }
    (some b, s.logRow n m r c scrub false)
  | _ =>
    let s := (s.count Reg.INTEG_MC_UE).countMac n m fun (x : MacCnt) => { x with ue := satInc x.ue }
    let s := s.logRow n m r 0xFF scrub true
    let s := if s.healthOf n m (r / 128) < rgLost then s.setHealth n m (r / 128) rgLost else s
    (none, s.raise 0x2052 n (m + 16 * r + 2 ^ 16 * b2n scrub))

/-- Flip cells of rows. -/
def State.flipRows (s : State) (n : Nat) (hits : List RowHit) : State :=
  hits.foldl (fun s h =>
    let k := rowKey n h.mac h.row
    { s with mflip := s.mflip.set 0 k (s.mflip.get 0 k ^^^ h.bits) }) s

/-- MSCRUB: the 128 rows of a row-group read through ECC (R188). -/
def State.scrubRowGroup (s : State) (n m rg : Nat) : State :=
  forN 128 (fun i s => (s.readRow n m (128 * rg + i) false).2) s

/-! ### A pass (R228 to R233) -/

/-- The group size of a code. -/
def groupSize (g : Nat) : Nat := if g = 0 then 32 else if g = 1 then 64 else 128

/-- Group sums of one channel, for inputs x of a row-group and groups of size G: the exact sum of x_i w_{i,c} (R231). -/
def groupSums (x wts : List Int) (size : Nat) : List Int :=
  (List.range (128 / size)).map fun g =>
    (List.range size).foldl (fun (a : Int) i => a + x.getD (g * size + i) 0 * wts.getD (g * size + i) 0) 0

/-- The result of a pass: group sums per channel, and whether every T_g equals K_g (R233). -/
structure PassOut where
  sums : List (List Int)
  ok : Bool
  deriving DecidableEq, Repr

/-- Run a pass of row-group rg at weight width w and group code g on inputs x; `hit` is a transient fault of one delivered
sum, channel 128 naming the lane. -/
def State.runPass (s : State) (n m rg w g : Nat) (x : List Int) (hit : Option PassHit) : PassOut :=
  let rows := (List.range 128).map fun i => s.rowBits n m (128 * rg + i)
  let size := groupSize g
  let off := fun (c j : Nat) => match hit with
    | some h => if h.chan = c ∧ h.group.val = j then h.delta else 0
    | none => 0
  let shift := fun (c : Nat) (l : List Int) => l.mapIdx fun j v => v + off c j
  let sums := (List.range (chans w)).map fun c => shift c (groupSums x (rows.map fun b => weightOf b w c) size)
  let lane := shift 128 (groupSums x (rows.map fun b => colInt b 128 16) size)
  let total := (List.range (128 / size)).map fun j => sums.foldl (fun (a : Int) l => a + l.getD j 0) 0
  ⟨sums, total == lane⟩

/-! ### Loads (R184, R185, R227, R263) -/

/-- MLOAD modes. -/
def modePlanes : Nat := 0
def modeCb16 : Nat := 1
def modeRaw : Nat := 2
def modeTable : Nat := 3

/-- `w` bits of a packed row from element e (R257). -/
def packed (x w e : Nat) : Nat := (x >>> (w * e)) % 2 ^ w

/-- Bytes of source of an MLOAD (R184). -/
def srcBytes (mode nrg w nch : Nat) : Nat :=
  if mode = modePlanes then 16 * w * nrg * nch else if mode = modeCb16 then 16 * 4 * nrg * nch else 2304 * nrg

/-- A row of a RAW source: channels from `nch` on and the unused columns are written as 0 (Table 6-3, R224, R245), the lane as
it comes (R227). -/
def rawRow (w nch : Nat) (x : Nat) : BitVec 144 := BitVec.ofNat 144 (x % 2 ^ (w * nch) + 2 ^ 128 * (x / 2 ^ 128))

/-- Row i of the source of an MLOAD with nrg row-groups (R184, R224, R227). -/
def srcRow (mode nrg w nch : Nat) (cb : List Byte) (src : List Byte) (i : Nat) : BitVec 144 :=
  if mode = modeRaw then rawRow w nch (leAt src (18 * i) 18)
  else
    let sw := if mode = modeCb16 then 4 else w
    let per := 16 * sw * nrg
    let b := (List.range nch).foldl (fun (b : BitVec 144) c =>
      let chan := (src.drop (per * c)).drop (sw * i / 8)
      let code := (leAt chan 0 3 >>> (sw * i % 8)) % 2 ^ sw
      let v := if mode = modeCb16 then (cb.getD code 0).toNat else code
      setFld b (w * c + w - 1) (w * c) v) 0
    withLane b w

/-- Write the rows, records and scales of an MLOAD of modes PLANES, CB16 and RAW; a SUSPECT or LOST row-group becomes
GOOD, a FAILED one stays (R185, Table 19-3, Table 19-8). -/
def State.loadRows (s : State) (n m rg0 nrg w nch g mode : Nat) (cb src : List Byte) (scales : Option (List Byte)) : State :=
  let s := forN (128 * nrg) (fun i (s : State) => s.putRow n m (128 * rg0 + i) (srcRow mode nrg w nch cb src i)) s
  let per := nch * (128 / groupSize g)
  forN nrg (fun k (s : State) =>
    let sc := scales.map fun b => (List.range per).map fun j => BitVec.ofNat 16 (leAt b (2 * (k * per + j)) 2)
    let s := s.setRg n m (rg0 + k) ⟨w, nch, g, sc⟩
    if s.healthOf n m (rg0 + k) = rgFailed then s else s.setHealth n m (rg0 + k) rgGood) s

/-- Qmax of a codebook table (R263). -/
def codebookQmax (es : List (BitVec 16)) : Nat :=
  let vs := es.map fun e => e.toInt
  let hi := vs.foldl (fun (a : Nat) v => max a v.toNat) 0
  let lo := vs.foldl (fun (a : Nat) v => max a (-v).toNat) 0
  if hi = 0 then lo else if lo = 0 then hi else min hi lo

/-! ### Descriptor fields of MRUN (Table 6-4) -/

/-- The macros an MRUN selects, by rank (R186). -/
def mrunMacros (d : List Byte) : List Nat := bitsSet (leAt d 2 2) 16
/-- Number of passes of each macro. -/
def mrunPasses (d : List Byte) : Nat := leAt d 9 1 * leAt d 10 2

/-- Does an operation of the Feeder hold macro m still: its load or scrub, or passes of an MRUN. -/
def FOp.uses (op : FOp) (m : Nat) : Bool :=
  match op.kind with
  | .mload d => decide (leAt d 4 1 / 16 ≠ modeTable) && decide (leAt d 1 1 % 16 = m)
  | .mscrub k _ => k == m
  | .mrun d =>
    let p := op.prog.get {} m
    (mrunMacros d).contains m && !p.abandoned && decide (p.done < mrunPasses d)

/-- The operations at work: those that left the queue, and the head once it has started. -/
def Tile.active (t : Tile) : List FOp := t.loads ++ (t.feeder.take 1).filter fun o => o.started

/-- Is the first operation that holds macro m at work on it: a load, a scrub, or passes that no restore is awaited for. -/
def Tile.macroBusy (t : Tile) (m : Nat) : Bool :=
  match t.active.find? fun o => o.uses m with
  | some o => match o.kind with
    | .mrun _ => (o.prog.get {} m).hold.isNone
    | _ => true
  | none => false

/-! ### The debug window (R241 to R243) -/

/-- Read 8 bytes at window offset o of macro m. -/
def State.dbgRead (s : State) (n m o : Nat) : Option Dword × State :=
  let (b, s) := s.readRow n m (o / 16) false
  (b.map fun b => BitVec.ofNat 64 (b.toNat >>> (8 * (o % 16))), s)

/-- Write 8 bytes at window offset o: refused where the row-group has no recorded W. -/
def State.dbgWrite (s : State) (n m o : Nat) (v : Dword) : Option State :=
  let w := (s.rg n m (o / 2048)).w
  if w = 0 then none
  else
    let lo := 8 * (o % 16)
    some (s.putRow n m (o / 16) (withLane (setFld (s.rowBits n m (o / 16)) (lo + 63) lo v.toNat) w))

end Sys2Proof.Machine
end

