-- ==== Sys2Proof/Machine/Integ.lean ====
section
/-! DEFINITION. Errors, restore, sparing, the error log and the Tally's commands (chapter 19). -/

namespace Sys2Proof.Machine
open Sys2Proof

/-! ### Restore requests (R619, R632) -/

/-- Enter restore requests: a tile's request takes a place in the chip's queue of 64 and posts a notice of KIND 2, once
while it is pending; with the queue full it waits (R619, R632). -/
def State.requestRestore (s : State) (n m rg : Nat) (lost : Bool) : State :=
  let k := m * 32 + rg
  if (s.tile n).restores.contains k || decide (64 ≤ s.restoreQ.length) then s
  else
    let s := s.modTile n fun t => { t with restores := t.restores ++ [k] }
    { s with restoreQ := s.restoreQ ++ [RstReq.mk n m rg lost] }.postNotice n 2

/-- The row-groups for which passes of a tile are held, with the LOST mark: (macro, row-group). -/
def Tile.holds (t : Tile) : List (Nat × Nat) :=
  (t.feeder ++ t.loads).foldl (fun (acc : List (Nat × Nat)) (op : FOp) =>
    match op.kind with
    | .mrun d => acc ++ op.prog.filterMap fun (p : Nat × MacProg) =>
        if p.2.hold.isSome && !p.2.abandoned then
          some (p.1, leAt d 8 1 + p.2.done % leAt d 9 1)
        else none
    | _ => acc) []

/-- Held passes whose request found the queue full enter it as entries free (R632). -/
def State.retryRestores (s : State) : State :=
  s.tiles.foldl (fun s p => p.2.holds.foldl (fun s h =>
    s.requestRestore p.1 h.1 h.2 (s.healthOf p.1 h.1 h.2 == rgLost)) s) s

/-- A read of INTEG_RQ: the oldest request, removed (R619). -/
def State.rqTake (s : State) : Word × State :=
  match s.restoreQ with
  | [] => (0, s)
  | r :: q =>
    (BitVec.ofNat 32 (r.tile + 2 ^ 8 * r.mac + 2 ^ 12 * r.rg + 2 ^ 17 * b2n r.lost + 2 ^ 31),
      { s with restoreQ := q }.retryRestores)

/-- The end of a restore (R620, R621): DONE, FAIL and event 0x2055. -/
def State.restoreEnd (s : State) (tile m rg : Nat) (fail : Bool) (reason : Nat) : State :=
  let s := (s.setBit Reg.INTEG_RST_CTL 26 fail).setBit Reg.INTEG_RST_CTL 27 true
  let s := { s.setBit Reg.INTEG_RST_CTL 25 false with restore := none }
  s.raise 0x2055 (if 143 < tile then 0xFF else tile)
    (m + 16 * rg + 2 ^ 16 * b2n fail + 2 ^ 17 * reason + 2 ^ 24 * tile)

/-- GO of INTEG_RST_CTL for the target written (R620, R621): it ends at once for an invalid target or source. -/
def State.restoreStart (s : State) (v : Word) : State :=
  let n := fld v 7 0
  let m := fld v 11 8
  let rg := fld v 16 12
  let src := s.getF Reg.INTEG_RST_SRC_LO 31 6 * 64 + 2 ^ 32 * s.getF Reg.INTEG_RST_SRC_HI 7 0
  if 143 < n then s.restoreEnd n m rg true 1
  else if !s.reachable n then s.restoreEnd n m rg true 2
  else if hbmSize < src + 2304 then s.restoreEnd n m rg true 3
  else { s.setBit Reg.INTEG_RST_CTL 25 true with restore := some { req := ⟨n, m, rg, false⟩, src := src } }

/-- Held passes on a row-group go on after its restore: the pass that was held runs again first (R249). -/
def Tile.releaseHold (t : Tile) (m rg : Nat) (abandon : Bool) : Tile :=
  let f := fun (op : FOp) =>
    match op.kind with
    | .mrun d =>
      let p := op.prog.get {} m
      if p.hold.isSome && !p.abandoned && decide (leAt d 8 1 + p.done % leAt d 9 1 = rg) then
        { op with prog := op.prog.set {} m { p with hold := none, abandoned := abandon } }
      else op
    | _ => op
  { t with feeder := t.feeder.map f, loads := t.loads.map f, restores := t.restores.erase (m * 32 + rg) }

/-- Channels that a restore writes of a row-group: as its record says; one with no record has no channels to tell apart, and
takes all 128 columns. -/
def RgRec.columns (r : RgRec) : Nat × Nat := if r.w = 0 then (128, 1) else (r.w, r.nch)

/-- The restore in progress ends, once the golden copy has come (R620, R621): it is written with W, NCH and GROUP as before,
the row-group becomes GOOD and the held passes go on; a poisoned or refused source fails it. -/
def State.restoreFinish (s : State) : State :=
  match s.restore with
  | none => s
  | some p =>
    let r := p.req
    if !s.reachable r.tile then s.restoreEnd r.tile r.mac r.rg true 2
    else match p.got with
      | none => s
      | some (some bs) =>
        let (w, nch) := (s.rg r.tile r.mac r.rg).columns
        let s := forN 128 (fun i (s : State) =>
          s.putRow r.tile r.mac (128 * r.rg + i) (srcRow modeRaw 1 w nch [] bs i)) s
        let s := if s.healthOf r.tile r.mac r.rg = rgFailed then s else s.setHealth r.tile r.mac r.rg rgGood
        (s.modTile r.tile fun t => t.releaseHold r.mac r.rg false).restoreEnd r.tile r.mac r.rg false 0
      | some none => s.restoreEnd r.tile r.mac r.rg true 0

/-- No restore in time (R621): the held passes are abandoned with 0x12, deferred, and event 0x2056. -/
def State.restoreExpire (s : State) (n : Fin 144) (m rg : Nat) : State :=
  let t := s.tile n
  if !t.holds.contains (m, rg) then s
  else
    let ds := (t.feeder ++ t.loads).filter fun op => match op.kind with
      | .mrun d => let p := op.prog.get {} m
        p.hold.isSome && !p.abandoned && decide (leAt d 8 1 + p.done % leAt d 9 1 = rg)
      | _ => false
    let s := s.modTile n fun t => t.releaseHold m rg true
    let s := ds.foldl (fun s op => s.defer (.tile n) ⟨0x12, 1, m + 16 * rg, op.addr⟩) s
    s.raise 0x2056 n (m + 16 * rg)

/-! ### The background macro scrubber (R617) -/

/-- The scrubber of tile n reads its next row, after cells flipped as `hits` says: rows of row-groups with no recorded W
are skipped.  While an MLOAD, an MSCRUB or passes are at work on the macro the row waits, to be read later (R239, Table
7-6). -/
def State.macroScrub (s : State) (n : Nat) (hits : List RowHit) : State :=
  let s := s.flipRows n hits
  let p := (s.tile n).mscrubPtr
  let m := p / 4096
  let r := p % 4096
  if !s.bit Reg.INTEG_CTRL 0 || !s.reachable n || (s.tile n).macroBusy m then s
  else
    let s := s.modTile n fun t => { t with mscrubPtr := (p + 1) % 65536 }
    if (s.rg n m (r / 128)).w = 0 then s else (s.readRow n m r true).2

/-! ### The error log (R622) and what the runtime makes of it (R626) -/

/-- Soft repair entries in use: 16 bytes each (R624). -/
def State.repairEntries (s : State) : List (List Byte) :=
  match s.repairCopy with
  | none => []
  | some o => (List.range (leAt (s.flash.getMany 0xFF (o + 12) 2) 0 2)).map fun i => s.flash.getMany 0xFF (o + 64 + 16 * i) 16

/-- Write the soft repair table: the other copy, with SEQ + 1; with no valid copy, copy 0 with SEQ 1 (R624, R634). -/
def State.putRepairs (s : State) (opsec : Nat) (es : List (List Byte)) : State :=
  let (o, seq) := match s.repairCopy with
    | some o => (if o = 0x100000 then 0x180000 else 0x100000, leAt (s.flash.getMany 0xFF (o + 8) 4) 0 4 + 1)
    | none => (0x100000, 1)
  let h := leBytes 4 0x31525354 ++ leBytes 4 1 ++ leBytes 4 seq ++ leBytes 4 es.length ++ leBytes 8 opsec ++ List.replicate 36 0
  let body := es.flatMap id
  { s with flash := s.flash.setMany 0xFF o (h ++ leBytes 4 (crc32 (h ++ body)) ++ body) }

/-- Seconds of operation now (R625): the table's OPSEC and the time since it was written. -/
def State.opsecNow (s : State) : Nat := s.opsec + (s.now - s.opsecAt) / 1000000000

/-- OPSEC is brought up to date in the table (R625). -/
def State.opsecWrite (s : State) : State :=
  let s' := s.putRepairs s.opsecNow s.repairEntries
  { s' with opsecAt := s.now }

/-- A soft repair entry (Table 19-5). -/
def repairEntry (kind state tile unit spare index first count : Nat) : List Byte :=
  leBytes 1 kind ++ leBytes 1 state ++ leBytes 2 tile ++ leBytes 1 unit ++ leBytes 1 spare ++ leBytes 2 index ++
    leBytes 4 first ++ leBytes 2 (min count 65535) ++ leBytes 2 0

/-- Does the table hold an entry of a unit. -/
def State.hasRepair (s : State) (kind tile unit index : Nat) : Bool :=
  s.repairEntries.any fun e => leAt e 0 1 == kind && leAt e 2 2 == tile && leAt e 4 1 == unit && leAt e 6 2 == index

/-- Append an entry to the table, within its 4,096, unless the unit has one. -/
def State.addRepair (s : State) (kind tile unit index first count : Nat) : State :=
  if s.hasRepair kind tile unit index || decide (4096 ≤ s.repairEntries.length) then s
  else s.putRepairs s.opsec (s.repairEntries ++ [repairEntry kind 0 tile unit 0xFF index first count])

/-- The runtime judges an entry it took from the log (R626): an error is charged to its bank's physical row or its macro's
column; two corrected errors within 86,400 s of operation, or an uncorrectable error that recurs after the unit has been
fully rewritten, qualify the unit. -/
def State.judgeError (s : State) (e : LogEntry) (rewritten : Bool) : State :=
  let mac := e.l0.getLsbD 28
  let ue := e.l0.getLsbD 30
  let tile := fld e.l0 27 20
  let unit := fld e.l0 19 16
  let index := if mac then fld e.l1 7 0 else fld e.l0 9 0 / 4
  if mac && ue then s
  else
    let same := fun (c : Charge) => c.tile == tile && c.unit == unit && c.mac == mac && c.index == index
    let t := s.opsecNow
    let old := s.charges.find? same
    let c : Charge := old.getD ⟨tile, unit, mac, index, t, none, 0, false⟩
    let near := match c.last with | some l => decide (t ≤ l + 86400) | none => false
    let quals := if ue then c.ue && rewritten else near
    let c' : Charge := { c with last := (if ue then c.last else some t), count := c.count + 1, ue := c.ue || ue }
    let s := { s with charges := s.charges.filter (fun c => !same c) ++ [c'] }
    if quals then s.addRepair (if mac then 2 else 1) tile unit index c'.first c'.count else s

/-- A read of INTEG_LOG0 removes the oldest entry and latches LOG1 and LOG2 for the reading agent (R622); an entry that
the runtime on a Ranger core takes is judged (R626). -/
def State.logTake (s : State) (a : Agent) (rewritten : Bool) : Word × State :=
  match s.errLog with
  | [] => (0, { s with latches := (s.latches.set 0 (a.index * 8 + 1) 0).set 0 (a.index * 8 + 2) 0 })
  | e :: r =>
    let s := { s with errLog := r,
                      latches := (s.latches.set 0 (a.index * 8 + 1) e.l1).set 0 (a.index * 8 + 2) e.l2 }
    let s := match a with
      | .ranger _ => s.judgeError e rewritten
      | _ => s
    (e.l0 ||| 0x80000000, s)

/-- The end of a second in which log entries were dropped: event 0x2057 (R622). -/
def State.logSecond (s : State) : State :=
  if s.errLostSec = 0 then s else { s with errLostSec := 0 }.raise 0x2057 0 s.errLostSec

/-- INTEG_CTRL.CNT_CLR clears the counts at +0x020 to +0x034. -/
def State.integClear (s : State) : State :=
  (List.range 6).foldl (fun s i => s.wr (Reg.INTEG_SP_CE + 4 * i) 0) s

/-! ### Sparing (R623, R627, R628) -/

/-- Spares of a bank or macro in use, by number. -/
def State.sparesUsed (s : State) (n u : Nat) (mac : Bool) : Nat :=
  let fused := if mac then (Config.macroSpares n u).val else (Config.bankSpares n u).val
  (s.repairs.filter fun r => r.1 == n && r.2.1 == u && r.2.2.1 == mac).foldl (fun w r => w ||| 2 ^ r.2.2.2.2) (2 ^ fused - 1)

/-- A write of INTEG_REP_MAP (R628): it programs a spare while the window is open, and is discarded with event 0x2062
otherwise. -/
def State.repMapWrite (s : State) (v : Word) : State :=
  if !s.bit Reg.INTEG_REPAIR 0 then s.raise 0x2062 0 v.toNat
  else
    let n := fld v 7 0
    let mac := v.getLsbD 12
    let idx := fld v 23 16
    let sp := fld v 26 24
    if 143 < n ∨ (mac ∧ (152 < idx ∨ 6 < sp)) then s
    else { s with repairs := s.repairs ++ [(n, fld v 11 8, mac, idx, sp)] }

/-- INTEG_REPAIR.LOCK, or the first GO, closes the window (R628). -/
def State.repairLock (s : State) : State := s.setBit Reg.INTEG_REPAIR 0 false

/-- Apply one entry of the soft repair table at a maintenance boot (R627): the entry as it then reads, and whether it was
applied. -/
def State.applyRepair (s : State) (e : List Byte) : List Byte × Bool × State :=
  let kind := leAt e 0 1
  let st := leAt e 1 1
  let n := leAt e 2 2
  let u := leAt e 4 1
  let idx := leAt e 6 2
  if st = 2 then (e, false, s)
  else if kind = 3 then (e, true, s.setHealth n u (idx % 32) rgFailed)
  else if kind = 1 ∨ kind = 2 then
    let mac := kind == 2
    let used := s.sparesUsed n u mac
    match (List.range (if mac then 7 else 8)).find? fun i => !used.testBit i with
    | some sp =>
      (e.take 1 ++ leBytes 1 1 ++ (e.drop 2).take 3 ++ leBytes 1 sp ++ e.drop 6, true,
        { s with repairs := s.repairs ++ [(n, u, mac, idx, sp)] })
    | none => (e.take 1 ++ leBytes 1 2 ++ e.drop 2, false, s.raise 0x2061 n (u + 16 * b2n mac + 256 * idx))
  else (e, false, s)

/-- The soft repair table is applied (R624, R627, R634); the result says whether some entry now found no spare. -/
def State.applyRepairs (s : State) : Bool × State :=
  match s.repairCopy with
  | none => (false, (s.raise 0x2063 0).putRepairs 0 [])
  | some _ =>
    let es := s.repairEntries
    let (es', k, s) := es.foldl (fun (acc : List (List Byte) × Nat × State) e =>
      let (l, k, s) := acc
      let (e', ok, s) := s.applyRepair e
      (l ++ [e'], k + b2n ok, s)) ([], 0, s)
    let s := if es' = es then s else s.putRepairs s.opsec es'
    ((es.zip es').any fun e => leAt e.1 1 1 != 2 && leAt e.2 1 1 == 2, s.raise 0x2060 0 k)

/-! ### Computed registers -/

/-- INTEG_MH_STATE_LO and _HI of the selected macro. -/
def State.mhState (s : State) (hi : Bool) : Word :=
  let n := s.getF Reg.INTEG_MH_SEL 7 0
  let m := s.getF Reg.INTEG_MH_SEL 11 8
  (List.range 16).foldl (fun w k => setFld w (2 * k + 1) (2 * k) (s.healthOf n m (k + (if hi then 16 else 0)))) 0

/-- The counts of the selected macro. -/
def State.mhCnt (s : State) : MacCnt := s.macCnt.get {} (macKey (s.getF Reg.INTEG_MH_SEL 7 0) (s.getF Reg.INTEG_MH_SEL 11 8))

/-- INTEG_SPARE of the selected bank or macro. -/
def State.spareWord (s : State) : Word :=
  BitVec.ofNat 32 (s.sparesUsed (s.getF Reg.INTEG_MH_SEL 7 0) (s.getF Reg.INTEG_MH_SEL 11 8) (!s.bit Reg.INTEG_MH_SEL 12))

/-- INTEG_LOG0 as it stands: the oldest entry (a plain read of it is the LOG_READ command). -/
def State.rqWord (s : State) : Word := s.rqTake.1

/-! ### The Tally (R629 to R631, R636) -/

/-- TALLY_CTRL (R630, R636): CLEAR empties the ring; FREEZE holds or releases the arrival queue. -/
def State.tallyCtrl (s : State) (v : Word) : State :=
  let s := s.setBit Reg.TALLY_CTRL 0 (v.getLsbD 0)
  let s := if v.getLsbD 1 then { s.wr Reg.TALLY_COUNT 0 with tally := [] } else s
  s.flowTally

/-- Word w of Tally entry i. -/
def State.tallyWord (s : State) (i w : Nat) : Word :=
  let r := s.tally.get {} i
  BitVec.ofNat 32 ((r.time.toNat + 2 ^ 48 * r.code.toNat + 2 ^ 64 * r.detail.toNat) >>> (32 * w))
/-- The origin word of entry i. -/
def State.tallyOrig (s : State) (i : Nat) : Word :=
  let r := s.tally.get {} i
  BitVec.ofNat 32 (r.chip.toNat + 256 * r.src.toNat)

/-- The staged event of an agent (R631): CODE with SRC, LO, HI. -/
def State.staged (s : State) (a : Agent) (i : Nat) : Word := s.latches.get 0 (a.index * 8 + 3 + i)
/-- Stage a word of it; a write of HI records the event. -/
def State.stage (s : State) (a : Agent) (i : Nat) (v : Word) : State :=
  let v := if i = 0 then v &&& 0x00FFFFFF else v
  let s := { s with latches := s.latches.set 0 (a.index * 8 + 3 + i) v }
  if i = 2 then
    let c := s.staged a 0
    s.raise (fld c 15 0) (fld c 23 16) ((s.staged a 1).toNat + 2 ^ 32 * v.toNat)
  else s

end Sys2Proof.Machine
end

