-- ==== Sys2Proof/Machine/Pins.lean ====
section
/-! DEFINITION. The multi-function pins (chapter 23): functions, hand-over, GPIO edges. -/

namespace Sys2Proof.Machine
open Sys2Proof

/-- UART k. -/
def State.uart (s : State) (k : Nat) : Uart := s.uarts.get {} k
def State.setUart (s : State) (k : Nat) (u : Uart) : State := { s with uarts := s.uarts.set {} k u }
def State.modUart (s : State) (k : Nat) (f : Uart → Uart) : State := s.setUart k (f (s.uart k))

/-- Is function code `f` assigned to pin i (Table 23-1, R700). -/
def pinHasFn (i f : Nat) : Bool :=
  f = 0 || (f = 1 && decide (9 ≤ i)) || (f = 2 && decide (29 ≤ i))

/-- Pin i is in a hand-over. -/
def State.pinBusy (s : State) (i : Nat) : Bool := s.bit Reg.PINS_HO_BUSY i

/-- The function that pin i is connected to; none during a hand-over. -/
def State.pinFn (s : State) (i : Nat) : Option Nat :=
  if s.pinBusy i then none else some (s.getF (Reg.PINS_CFG i) 2 0)

/-- Does pin i carry function code `f` now. -/
def State.pinIs (s : State) (i f : Nat) : Bool := s.pinFn i == some f

/-- The pins that offer the receive input of UART k, the lowest first (Table 23-1). -/
def rxdPins (k : Nat) : List (Nat × Nat) := if k = 0 then [(10, 1)] else [(12, 1), (31, 2)]
/-- The pins that offer its transmit output. -/
def txdPins (k : Nat) : List (Nat × Nat) := if k = 0 then [(9, 1)] else [(11, 1), (30, 2)]

/-- The pin that feeds the receiver of UART k: the lowest that selects it (R702). -/
def State.rxdPin (s : State) (k : Nat) : Option Nat := ((rxdPins k).find? fun p => s.pinIs p.1 p.2).map (·.1)
/-- A pad is connected to the transmitter of UART k. -/
def State.txdOn (s : State) (k : Nat) : Bool := (txdPins k).any fun p => s.pinIs p.1 p.2

/-- The filtered level that pin i's function sees. -/
def State.pinHigh (s : State) (i : Nat) : Bool := s.pinLevel.getLsbD i

/-- PINS_GPIO_IN: the filtered level, held during a hand-over (Table 23-4). -/
def State.gpioIn (s : State) : Word :=
  let b := s.rd Reg.PINS_HO_BUSY
  (s.pinLevel &&& ~~~b) ||| (s.gpioHeld &&& b)

/-- Event 0x6010, at most once per 1 ms, while PINS_GPIO_EV has bits that were not set at the previous one (R716). -/
def State.gpioTell (s : State) : State :=
  let ev := s.rd Reg.PINS_GPIO_EV
  let due := match s.gpioTold.2 with | none => true | some t => decide (t + 1000000 ≤ s.now)
  if due && ev &&& ~~~s.gpioTold.1 != 0 then { s with gpioTold := (ev, some s.now) }.raise 0x6010 0 ev.toNat else s

/-- A filtered edge of pin i (R705): no edge is recorded during a hand-over (Table 23-5). -/
def State.pinEdge (s : State) (i : Nat) (level : Bool) : State :=
  let was := s.pinHigh i
  let s := { s with pinLevel := setFld s.pinLevel i i (b2n level) }
  if s.pinBusy i || was == level then s
  else if s.bit (if level then Reg.PINS_GPIO_RISE else Reg.PINS_GPIO_FALL) i then
    (s.setBit Reg.PINS_GPIO_EV i true).gpioTell
  else s

/-- A GPIO pin whose driver is on shows the level that it drives, where nothing outside holds the pad (R705). -/
def State.padFollow (s : State) (i : Nat) : State :=
  if s.pinIs i 0 && s.bit Reg.PINS_GPIO_OE i then s.pinEdge i (s.bit Reg.PINS_GPIO_OUT i) else s

/-- The same of every pin, after PINS_GPIO_OUT or PINS_GPIO_OE was written. -/
def State.padsFollow (s : State) : State := (List.range 32).foldl (fun s i => s.padFollow i) s

/-- The pin that a UART line leaves is noted, for the character in progress on it (Table 22-4). -/
def State.cutLines (s : State) (i : Nat) : State :=
  (List.range 2).foldl (fun s k =>
    let s := if s.rxdPin k = some i then s.modUart k fun u => { u with rxCut := some s.now } else s
    if (txdPins k).any fun p => p.1 == i && s.pinIs p.1 p.2 then s.modUart k fun u => { u with txCut := some s.now }
    else s) s

/-- A write of PINS_CFGi (R709, R710, R714): an unassigned function discards the write with event 0x6011; PULL 3 is
stored as 0; a changed FUNC disconnects the pin. -/
def State.pinWrite (s : State) (i : Nat) (v : Word) : State :=
  if !pinHasFn i (fld v 2 0) then s.raise 0x6011 i v.toNat
  else
    let v := if fld v 5 4 = 3 then setFld v 5 4 0 else v
    let s := s.voteUse (Reg.PINS_CFG i)
    let changed := fld v 2 0 != s.getF (Reg.PINS_CFG i) 2 0
    let s := if changed && !s.pinBusy i then
        ({ s.cutLines i with gpioHeld := setFld s.gpioHeld i i (b2n (s.pinHigh i)) }).setBit Reg.PINS_HO_BUSY i true
      else s
    s.wrCopies (Reg.PINS_CFG i) (v &&& 0x000F1337)

/-- PINS_HANDOVER after the write (R712). -/
def State.handoverTime (s : State) : Nat := min 100 (max 1 (s.getF Reg.PINS_HANDOVER 6 0))

/-- The end of a hand-over of pin i (Table 23-4 step 3). -/
def State.pinConnect (s : State) (i : Nat) : State :=
  if s.pinBusy i then ((s.voteUse (Reg.PINS_CFG i)).setBit Reg.PINS_HO_BUSY i false).padFollow i else s

/-- At the release of main reset the straps and the slot code are sampled (R706, R13, R94, R96). -/
def State.sampleStraps (s : State) : State :=
  let l := fld s.pinLevel 8 0
  let slot := l / 16 % 32
  let ok := popc slot 5 % 2 = 0
  let id := if ok then 4 * (slot % 16) + l % 4 else 0xF0 + l % 4
  let s := s.wr Reg.PINS_STRAP (BitVec.ofNat 32 l)
  s.wr Reg.CHIP_POS (BitVec.ofNat 32 (l + 2 ^ 9 * b2n ok + 2 ^ 16 * id))

end Sys2Proof.Machine
end

