-- ==== Sys2Proof/Machine/Landing.lean ====
section
/-! DEFINITION. Landing and the TIME block (chapter 14): received frames, stream matching, frame assembly and resend,
tokens, the runtime's rings, the PTP clock and the odometry counter. -/

namespace Sys2Proof.Machine
open Sys2Proof

/-! ### Runs of bytes in words -/

/-- Cut a run of bytes at an address into runs that each lie in one 64-byte word, as offsets from the address. -/
def wordRuns (a : Nat) : Nat → Nat → List Byte → List (Nat × List Byte)
  | 0, _, _ => []
  | fuel + 1, o, bs =>
    if bs = [] then []
    else
      let n := 64 - (a + o) % 64
      (o, bs.take n) :: wordRuns a fuel (o + n) (bs.drop n)

/-- Runs of a whole write of `bs` at `a`. -/
def runsOf (a : Nat) (bs : List Byte) : List (Nat × List Byte) := wordRuns a (bs.length / 64 + 2) 0 bs

/-! ### The TIME block (R472 to R475) -/

/-- The PTP clock moves on by n PCLK cycles. -/
def State.runTime (s : State) (n : Nat) : State :=
  let r := sInt 32 (s.rd Reg.TIME_RATE).toNat
  { s with time := (((s.time : Int) + n * (10 * ((2 ^ 40 : Int) + r))) % (2 ^ 104 : Int)).toNat }

/-- Set a flag of every frame in assembly. -/
def State.flagFrames (s : State) (i : Nat) : State :=
  { s with streams := s.streams.map fun (p : Nat × Strm) =>
      (p.1, { p.2 with asm := p.2.asm.map fun (f : Frm) => { f with flags := setFld f.flags i i 1 } }) }

/-- A write of TIME_CTRL (R473, R475). -/
def State.timeCtrl (s : State) (v : Word) : State :=
  let s := if v.getLsbD 1 then s.setF Reg.TIME_CTRL 1 1 0 else s
  let s := if v.getLsbD 0 then
      let d := sInt 64 (s.rd64 Reg.TIME_STEP_LO)
      let s := { s with time := (((s.time : Int) + d * (2 ^ 40 : Int)) % (2 ^ 104 : Int)).toNat }
      (((s.setF Reg.TIME_CTRL 1 1 1).countWrap Reg.TIME_STEP_CNT).flagFrames 1).raise 0x4010 0 (s.rd64 Reg.TIME_STEP_LO)
    else s
  if v.getLsbD 2 then { s with odo := BitVec.ofNat 64 (s.rd64 Reg.TIME_ODO_SET_LO) } else s

/-- Levels of channels A and B, and for how many consecutive PCLK samples each has held (R475): a channel that has held a new
level for FILT + 1 samples has it accepted.  A leads B in the order 00, 10, 11, 01.  A channel whose pin is not connected to it
keeps its last accepted level (R701). -/
def State.odoEdge (s : State) (a b : Bool) (heldA heldB : Nat) : State :=
  let (a0, b0) := s.odoAb
  let filt := s.getF Reg.TIME_ODO_CFG 7 0
  let a := if s.pinIs 20 1 && decide (filt < heldA) then a else a0
  let b := if s.pinIs 21 1 && decide (filt < heldB) then b else b0
  let s := { s with odoAb := (a, b) }
  if !s.bit Reg.TIME_ODO_CFG 9 ∨ (a = a0 ∧ b = b0) then s
  else if a ≠ a0 ∧ b ≠ b0 then ((s.count Reg.TIME_ODO_ERR).flagFrames 4).raise 0x4011 0 s.odo.toNat
  else
    let aLeads := if a ≠ a0 then a != b else a == b
    if aLeads != s.bit Reg.TIME_ODO_CFG 8 then { s with odo := s.odo + 1 } else { s with odo := s.odo - 1 }

/-! ### Received frames (R453, R474) -/

/-- The ones' complement sum of 16-bit big-endian words. -/
def sum16 : List Byte → Nat
  | [] => 0
  | [a] => a.toNat * 256
  | a :: b :: r => a.toNat * 256 + b.toNat + sum16 r

/-- Fold a sum to 16 bits. -/
def fold16 (x : Nat) : Nat := let y := x % 65536 + x / 65536; let y := y % 65536 + y / 65536; y % 65536 + y / 65536

/-- Bytes o to o + n - 1 as a big-endian number. -/
def beAt (b : List Byte) (o n : Nat) : Nat := beNat ((b.drop o).take n)

/-- Offset of the EtherType, after at most one 802.1Q tag. -/
def etOffset (f : List Byte) : Nat := if beAt f 12 2 = 0x8100 then 16 else 12

/-- What a frame holds for Landing. -/
inductive Rx where
  /-- a check of R453 fails -/
  | bad
  /-- UDP: source address, source port, destination port, payload -/
  | udp (ip sport dport : Nat) (payload : List Byte)
  | other
  deriving DecidableEq, Repr

/-- Judge a frame (R453). -/
def judgeFrame (f : List Byte) : Rx :=
  let o := etOffset f
  if f.length < 14 ∨ 9216 < f.length then .bad
  else if beAt f o 2 ≠ 0x0800 then .other
  else
    let ip := f.drop (o + 2)
    if leAt ip 0 1 ≠ 0x45 ∨ beAt ip 6 2 % 0x4000 ≠ 0 then .other
    else if fold16 (sum16 (ip.take 20)) ≠ 0xFFFF then .bad
    else if leAt ip 9 1 ≠ 17 then .other
    else
      let udp := (ip.take (beAt ip 2 2)).drop 20
      let len := beAt udp 4 2
      let pseudo := sum16 ((ip.drop 12).take 8) + 17 + len
      if beAt udp 6 2 ≠ 0 ∧ fold16 (pseudo + sum16 (udp.take len)) ≠ 0xFFFF then .bad
      else .udp (beAt ip 12 4) (beAt udp 0 2) (beAt udp 2 2) ((udp.take len).drop 8)

/-- The UDP header and what follows it of a frame in IPv4, whole and with or without options, or in IPv6 without extension
headers. -/
def udpOf (f : List Byte) : Option (List Byte) :=
  let o := etOffset f
  let ip := f.drop (o + 2)
  if beAt f o 2 = 0x0800 ∧ leAt ip 0 1 / 16 = 4 ∧ beAt ip 6 2 % 0x4000 = 0 ∧ leAt ip 9 1 = 17 then
    some (ip.drop (4 * (leAt ip 0 1 % 16)))
  else if beAt f o 2 = 0x86DD ∧ leAt ip 0 1 / 16 = 6 ∧ leAt ip 6 1 = 17 then some (ip.drop 40)
  else none

/-- An IEEE 1588 event message, over Ethernet or UDP port 319 (R474): message types 0 to 3. -/
def isPtpEvent (f : List Byte) : Bool :=
  let o := etOffset f
  let event := fun (m : List Byte) => decide (m ≠ [] ∧ leAt m 0 1 % 16 < 4)
  (beAt f o 2 == 0x88F7 && event (f.drop (o + 2))) ||
    (udpOf f).any fun u => beAt u 2 2 == 319 && event (u.drop 8)

/-- The time of a frame's timestamp point on MAC k (R470). -/
def State.stamp (s : State) (k : Nat) : Nat := (s.timeNow + 2 ^ 64 - s.getF (Reg.MAC_TSCORR k) 15 0) % 2 ^ 64

/-! ### The runtime's rings (R477) -/

/-- Address of the ring entry at HEAD; `r` names the ring's registers. -/
def State.ringEntry (s : State) (r : Nat → Nat) : Nat :=
  (s.rd64 (r 0)) % 2 ^ 40 / 64 * 64 + 32 * (s.getF (r 0xC) 11 0)

/-- HEAD moves on. -/
def State.ringAdvance (s : State) (r : Nat → Nat) : State :=
  s.wr (r 0xC) (BitVec.ofNat 32 ((s.getF (r 0xC) 11 0 + 1) % 2 ^ (s.getF (r 8) 3 0) % 4096))

/-- Deliver a frame to the receive ring of MAC k; `ts` is its timestamp if it is an event message. -/
def State.rxRing (s : State) (k : Nat) (f : List Byte) (ts : Option Nat) : State :=
  let r := Reg.RXR k
  let e := s.ringEntry r
  match s.hbmRead e 32 with
  | (none, s) => s.count (Reg.MAC_RINGDROP k)
  | (some (b, p), s) =>
    if p || leAt b 10 1 % 2 = 0 then s.count (Reg.MAC_RINGDROP k)
    else
      let buf := leAt b 0 5
      match s.hbmWrite buf (runsOf buf f) with
      | (false, s) => s.count (Reg.MAC_RINGDROP k)
      | (true, s) =>
        let ent := leBytes 2 f.length ++ leBytes 1 (match ts with | some _ => 6 | none => 0) ++ leBytes 5 0 ++
          leBytes 8 (ts.getD 0) ++ leBytes 8 0
        ((s.hbmWrite (e + 8) [(0, ent)]).2).ringAdvance r

/-- Landing sends the entry at HEAD of MAC k's transmit ring, if it owns it: OWN alone tells a full ring from an empty one. -/
def State.txRing (s : State) (k : Nat) : State :=
  let r := Reg.TXR k
  if !s.bit (Reg.MAC_CTRL k) 0 ∨ 5 ≤ k then s
  else
    let e := s.ringEntry r
    match s.hbmRead e 32 with
    | (none, s) => s
    | (some (b, p), s) =>
      let fl := leAt b 10 1
      if p || fl % 2 = 0 then s
      else
        match s.hbmRead (leAt b 0 5) (min (leAt b 8 2) 9216) with
        | (none, s) => s
        | (some (f, _), s) =>
          let s := s.emit (.ethFrame k f)
          let tsreq := fl / 4 % 2 = 1
          let s := (s.hbmWrite (e + 10) [(0, leBytes 1 (if tsreq then fl / 4 * 4 + 2 else fl / 2 * 2))]).2
          let s := if tsreq then (s.hbmWrite (e + 16) [(0, leBytes 8 s.timeNow)]).2 else s
          s.ringAdvance r

/-! ### Streams (R457 to R468) -/

def State.strm (s : State) (n : Nat) : Strm := s.streams.get {} n
def State.setStrm (s : State) (n : Nat) (x : Strm) : State := { s with streams := s.streams.set {} n x }
def State.modStrm (s : State) (n : Nat) (f : Strm → Strm) : State := s.setStrm n (f (s.strm n))

/-- A field in force of entry n. -/
def State.strF (s : State) (n r hi lo : Nat) : Nat := Sys2Proof.fld (s.inForce (Reg.STR n r)) hi lo
/-- STATE of stream n. -/
def State.strState (s : State) (n : Nat) : Nat := s.getF (Reg.STR n 0x30) 1 0
def State.setStrState (s : State) (n st : Nat) : State := s.setF (Reg.STR n 0x30) 1 0 st
/-- READY and HELD follow the frames. -/
def State.showStrm (s : State) (n : Nat) : State :=
  (s.setF (Reg.STR n 0x30) 14 8 (s.strm n).ready.length).setF (Reg.STR n 0x30) 22 16 (s.strm n).held.length

/-- A written STR_TIMEOUT: FRAME_TO 0 is stored as 1 (R478). -/
def frameTo (v : Word) : Word := if Sys2Proof.fld v 15 0 = 0 then setFld v 15 0 1 else v

/-- The written entry comes into force and its PENDING bit clears (R458). -/
def State.strApply (s : State) (n : Nat) : State :=
  let s := (List.range 11).foldl (fun s i => s.apply (Reg.STR n (4 * i))) s
  s.wr (0x500000 + Reg.PEND + 4 * (n / 32)) (s.rd (0x500000 + Reg.PEND + 4 * (n / 32)) &&& ~~~(BitVec.ofNat 32 (2 ^ (n % 32))))

/-- The lowest-numbered enabled stream that a UDP packet of MAC k belongs to (R457). -/
def State.strMatch (s : State) (k ip sport dport : Nat) : Option Nat :=
  (List.range 64).find? fun n =>
    s.bit (Reg.STR n 0) 0 && s.strF n 0 2 1 == k && s.strF n 4 31 0 == ip && s.strF n 8 15 0 == dport &&
      (s.strF n 8 31 16 == 0 || s.strF n 8 31 16 == sport)

/-- Buffers of stream n in use. -/
def Strm.used (x : Strm) : List Nat :=
  x.asm.toList.map (fun f => f.buf) ++ x.ready.map (fun f => f.buf) ++ x.held.map (fun p => p.2)

/-- The lowest-numbered FREE buffer of stream n. -/
def State.freeBuf (s : State) (n : Nat) : Option Nat :=
  (List.range (s.strF n 0 21 16 + 1)).find? fun i => !((s.strm n).used.contains i)

/-- Local address of buffer i of stream n (R459). -/
def State.bufAddr (s : State) (n i : Nat) : Nat :=
  s.strF n 0x14 31 12 * 4096 + s.strF n 0x18 7 0 * 2 ^ 32 + i * s.strF n 0x1C 19 0 * 4096

/-- A frame of stream n counts as dropped. -/
def State.countDrop (s : State) (n : Nat) : State :=
  (s.count (Reg.STR n 0x38)).modStrm n fun x => { x with dropped := min (x.dropped + 1) 255 }

/-- A packet counts as late or a duplicate. -/
def State.countLate (s : State) (n : Nat) : State := s.countF (Reg.STR n 0x3C) 31 16

/-- The frame in assembly is abandoned (R464). -/
def State.abandon (s : State) (n reason : Nat) : State :=
  match (s.strm n).asm with
  | none => s
  | some f =>
    ((s.modStrm n fun x => { x with
        asm := none, abandoned := x.abandoned.filter (· != f.block) ++ [f.block], prevBlock := some f.block }).countDrop n).raise 0x4003 n
      (reason + 2 ^ 32 * (f.block % 2 ^ 32))

/-- A frame is dropped by policy (R468). -/
def State.policyDrop (s : State) (n : Nat) : State := (s.countDrop n).raiseLim 0x4004 n fun k => k

/-- The block ID that follows `b` (R466). -/
def nextBlock (ext : Bool) (b : Nat) : Nat := if ext then (b + 1) % 2 ^ 64 else if b = 0xFFFF then 1 else b + 1

/-- A leader of stream n (R459, R464, R466, R468). -/
def State.leaderIn (s : State) (n block pixfmt t : Nat) : State :=
  if ((s.strm n).asm.map fun f => f.block) = some block then s.countLate n
  else
    let s := s.abandon n 1
    let s := s.strApply n
    let x := s.strm n
    let gap := match x.prevBlock with
      | none => false
      | some b => block != nextBlock (s.strF n 0 3 3 == 1) b
    let s := s.modStrm n fun x => { x with dropping := none, abandoned := x.abandoned.filter (· != block) }
    let frame := fun (i : Nat) => ({ buf := i, addr := s.bufAddr n i, block := block, pixfmt := BitVec.ofNat 32 pixfmt, tFirst := t, dFirst := s.odo,
                                     flags := if gap then 32 else 0 } : Frm)
    let s := match s.freeBuf n with
      | some i => s.modStrm n fun x => { x with asm := some (frame i) }
      | none =>
        match (s.strF n 0 4 4 == 0), x.ready with
        | true, r :: rest => (s.modStrm n fun (x : Strm) => { x with ready := rest, asm := some (frame r.buf) }).policyDrop n
        | _, _ => (s.modStrm n fun x => { x with dropping := some block, prevBlock := some block }).policyDrop n
    s.showStrm n

/-- The trailer's packet ID as far as it is known (R462). -/
def State.lastId (s : State) (n : Nat) (f : Frm) : Option Nat :=
  match f.trailer with
  | some t => some t
  | none => if s.strF n 0x10 23 0 = 0 then none else some (s.strF n 0x10 23 0 + 1)

/-- The frame completes when its leader, trailer and every payload packet below the trailer are here (R462, R465). -/
def State.tryComplete (s : State) (n t : Nat) : State :=
  match (s.strm n).asm with
  | none => s
  | some f =>
    match f.trailer with
    | none => s
    | some tr =>
      if ((List.range tr).drop 1).all fun i => f.got.get false i then
        let f := { f with tLast := t, dLast := s.odo }
        (s.modStrm n fun x => { x with asm := none, ready := x.ready ++ [f], prevBlock := some f.block }).showStrm n
      else s

/-- Runs of missing packet IDs in [1, top], leaving out those that no resend may name. -/
def gapsOf (f : Frm) (top : Nat) : List (Nat × Nat) :=
  ((List.range (top + 1)).drop 1).foldl (fun acc i =>
    if f.got.get false i || f.noResend.get false i || f.trailer == some i then acc
    else match acc.getLast? with
      | some (a, b) => if b + 1 = i then acc.dropLast ++ [(a, i)] else acc ++ [(i, i)]
      | none => [(i, i)]) []

/-- Are payload packets missing in [1, top]. -/
def missing (f : Frm) (top : Nat) : Bool :=
  ((List.range (top + 1)).drop 1).any fun i => !f.got.get false i && f.trailer != some i

/-- Request a resend of the gaps, or, when the last request has had its FRAME_TO, abandon the frame (R463, R464);
`expired`: FRAME_TO has passed without a packet. -/
def State.gapCheck (s : State) (n : Nat) (expired : Bool) : State :=
  match (s.strm n).asm with
  | none => s
  | some f =>
    let top := max f.highest (match f.trailer with
      | some t => t
      | none => if expired then (s.lastId n f).getD 0 else 0)
    let gaps := gapsOf f top
    if !missing f top then s
    else if gaps ≠ [] ∧ f.requests < s.strF n 0 11 8 then
      let s := s.modStrm n fun x => { x with asm := some { f with requests := f.requests + 1,
                                                                  flags := setFld f.flags 2 2 1 } }
      (s.countF (Reg.STR n 0x3C) 15 0).emit (.resendCmd (s.strF n 0 2 1) (s.inForce (Reg.STR n 4))
        (s.getF Reg.LANDING_CTRL 15 0) (s.strF n 0 3 3 == 1) (s.strF n 0 31 24) f.block gaps)
    else if expired then (s.abandon n 0).showStrm n
    else s

/-- The frame in assembly of stream n, if a packet of a block belongs to it; otherwise the packet is discarded, and counted
late where its frame was abandoned (R461, R480). -/
def State.forBlock (s : State) (n block : Nat) (k : Frm → State) : State :=
  let x := s.strm n
  match x.asm with
  | some f => if f.block = block then k f else if x.abandoned.contains block then s.countLate n else s
  | none => if x.abandoned.contains block then s.countLate n else s

/-- A packet with a status and no payload counts as missing, and is never asked for again (R456). -/
def State.missingIn (s : State) (n block id : Nat) : State :=
  s.forBlock n block fun f =>
    s.modStrm n fun x => { x with asm := some { f with noResend := f.noResend.set false id true } }

/-! ### Staging (R461, R479) -/

/-- Bytes of packet data in staging. -/
def State.stageUsed (s : State) : Nat := (s.ingest.map fun p => p.data.length).sum

/-- LANDING_STAGE follows the staging memory: USED in KiB, rounded up (log 73), and the highest. -/
def State.showStage (s : State) : State :=
  let u := (s.stageUsed + 1023) / 1024
  (s.setF Reg.LANDING_STAGE 13 0 u).setF Reg.LANDING_STAGE 29 16 (max u (s.getF Reg.LANDING_STAGE 29 16))

/-- Does the frame of a staged packet still stand: in assembly or READY. -/
def State.stagedFor (s : State) (p : Staged) : Bool :=
  let x := s.strm p.strm
  (x.asm.any fun f => f.block == p.block) || x.ready.any fun f => f.block == p.block

/-- Is a packet of a frame of stream n still in staging. -/
def State.staging (s : State) (n block : Nat) : Bool := s.ingest.any fun p => p.strm == n && p.block == block

/-- A payload packet (R456, R460, R461): it enters staging, from where it is written to the frame's buffer. -/
def State.payloadIn (s : State) (n status block id : Nat) (data : List Byte) (t : Nat) : State :=
  s.forBlock n block fun f =>
    let pb := s.strF n 0xC 13 0
    if id = 0 then s
    else if f.got.get false id then s.countLate n
    else if pb < data.length ∨ (data.length < pb ∧ (id < f.highest ∨ (f.short.isSome ∧ f.short ≠ some id))) ∨
        (f.short.elim false fun i => decide (i < id)) = true ∨
        s.strF n 0x1C 19 0 * 4096 < (id - 1) * pb + data.length then (s.abandon n 2).showStrm n
    else
      let a := f.addr + (id - 1) * pb
      if hbmSize < a + data.length then s
      else
        let s := ({ s with ingest := s.ingest ++ [({ strm := n, block := block, addr := a, data := data } : Staged)] }).showStage
        let f' := { f with
          got := f.got.set false id true, highest := max f.highest id,
          short := (if data.length < pb then some id else f.short),
          length := (if f.highest ≤ id then (id - 1) * pb + data.length else f.length),
          flags := (if status ≠ 0 then setFld f.flags 3 3 1 else f.flags) }
        (s.modStrm n fun x => { x with asm := some f' }).tryComplete n t

/-- A trailer (R462, R463). -/
def State.trailerIn (s : State) (n block id t : Nat) : State :=
  s.forBlock n block fun f =>
    if f.trailer.isSome then s.countLate n
    else
      let s := s.modStrm n fun x => { x with asm := some { f with trailer := some id } }
      (s.tryComplete n t).gapCheck n false

/-- What a received frame is to Landing. -/
inductive Gvsp where
  | notStream
  | bad
  | leader (n block pixfmt : Nat)
  | payload (n status block id : Nat) (data : List Byte)
  | trailer (n block id : Nat)
  /-- a status and no payload (R456) -/
  | missing (n block id : Nat)
  deriving DecidableEq, Repr

/-- The GVSP packet that a UDP payload of stream n is (R454, R455). -/
def State.gvspOf (s : State) (n : Nat) (u : List Byte) : Gvsp :=
  let ext := s.strF n 0 3 3 == 1
  let b4 := leAt u 4 1
  let status := beAt u 0 2
  let block := if ext then beAt u 8 8 else beAt u 2 2
  let id := if ext then beAt u 16 4 else beAt u 5 3
  let body := u.drop (if ext then 20 else 8)
  if u.length < (if ext then 20 else 8) ∨ (b4 / 128 == 1) ≠ ext ∨ b4 % 16 = 0 ∨ 3 < b4 % 16 then .bad
  else if status ≠ 0 ∧ body = [] then .missing n block id
  else match b4 % 16 with
    | 1 => if beAt body 2 2 = 1 then .leader n block (beAt body 12 4) else .bad
    | 2 => .trailer n block id
    | 3 => .payload n status block id body
    | _ => .bad

/-- Entries with no frame in assembly apply their pending values before the next packet (R458). -/
def State.applyIdleStreams (s : State) : State :=
  (List.range 64).foldl (fun s n =>
    if s.bit (0x500000 + Reg.PEND + 4 * (n / 32)) (n % 32) && (s.strm n).asm.isNone then s.strApply n else s) s

/-- What a frame on MAC k is. -/
def State.classify (s : State) (k : Nat) (f : List Byte) : Gvsp :=
  match judgeFrame f with
  | .bad => .bad
  | .other => .notStream
  | .udp ip sp dp u =>
    if 4 ≤ k then .notStream
    else match s.strMatch k ip sp dp with
      | none => .notStream
      | some n => s.gvspOf n u

/-- The mirror's copy of a frame on MAC k (R452). -/
def State.mirror (s : State) (k : Nat) (f : List Byte) : State :=
  if s.bit (Reg.MAC_CTRL 5) 1 ∧ s.getF (Reg.MAC_CTRL 5) 4 2 = k then
    s.rxRing 5 f (if isPtpEvent f then some (s.stamp k) else none)
  else s

/-- The first matched packet makes a WAITING stream ACTIVE, and a LOST one whose link is back (R482). -/
def State.activate (s : State) (n : Nat) : State :=
  match s.strState n with
  | 1 => s.setStrState n 2
  | 3 => if s.bit (Reg.MAC_STAT (s.strF n 0 2 1)) 0 then
      (s.setStrState n 2).modStrm n fun x => { x with discont := true } else s
  | _ => s

/-- A frame arrives on MAC k: its mirror copy is taken, then `act` gets what it is; a disabled MAC receives nothing, and a frame
for which staging has no room is dropped (R479). -/
def State.macFrame (s : State) (k : Nat) (f : List Byte) (act : State → Gvsp → State) : State :=
  if !s.bit (Reg.MAC_CTRL k) 0 then s
  else if 2 ^ 23 < s.stageUsed + f.length then (s.count Reg.LANDING_STAGE_DROP).raiseLim 0x4007 k fun n => n
  else
    let s := (s.mirror k f).applyIdleStreams
    let s := { s with svc := { s.svc with rx := s.svc.rx.set 0 k (s.svc.rx.get 0 k + 1) } }
    act s (s.classify k f)

/-- The meaning of a classified frame of MAC k. -/
def State.takeFrame (s : State) (k : Nat) (f : List Byte) (g : Gvsp) : State :=
  let t := s.stamp k
  match g with
  | .bad => s.count (Reg.MAC_RXBAD k)
  | .notStream => s.rxRing k f (if isPtpEvent f then some t else none)
  | .leader n b p => (s.activate n).leaderIn n b p t
  | .payload n st b i d => (s.activate n).payloadIn n st b i d t
  | .trailer n b i => (s.activate n).trailerIn n b i t
  | .missing n b i => (s.activate n).missingIn n b i

/-! ### Tokens (R465, R467, R469, R483) -/

/-- The token word of a frame (Table 14-2). -/
def State.tokenBytes (s : State) (n seq : Nat) (f : Frm) : List Byte :=
  let x := s.strm n
  leBytes 8 f.addr ++ leBytes 8 f.block ++ leBytes 8 f.tFirst ++ leBytes 8 f.tLast ++
  leBytes 8 f.dFirst.toNat ++ leBytes 8 f.dLast.toNat ++ leBytes 4 f.length ++
  leBytes 2 ((if x.discont then setFld f.flags 0 0 1 else f.flags).toNat) ++ leBytes 1 n ++ leBytes 1 x.dropped ++
  leBytes 4 seq ++ leBytes 4 f.pixfmt.toNat

/-- A token write refused for another reason than FULL (R483). -/
def State.tokenRefused (s : State) (n status : Nat) : State := s.raiseLim 0x4005 n fun _ => status

/-- The runtime notes a gap of stream n for its record (R499). -/
def State.noteGap (s : State) (discont : Bool) (n seq : Nat) : State :=
  { s with svc := { s.svc with gaps := s.svc.gaps ++ [Gap.mk discont n seq s.timeNow s.odo] } }

/-- Landing tries to deliver the first READY frame of stream n, once all of it has been written (R461, R465; DEDUCED, log 73):
in whatever state the stream is (R480).  A token for the register space or the bit-alias region is refused there (R62, R90). -/
def State.deliverToken (s : State) (n : Nat) : State :=
  match (s.strm n).ready with
  | [] => s
  | f :: rest =>
    let a := s.strF n 0x20 31 6 * 64 + s.strF n 0x24 7 0 * 2 ^ 32
    if s.staging n f.block then s
    else if 0x1C00000000 ≤ a ∧ a < 0x1C00800000 then
      (s.regRefused 148 (a - 0x1C00000000) true 2 false).tokenRefused n 8
    else if 0x1D00000000 ≤ a ∧ a < 0x1D10000000 then
      (s.regRefused 148 ((a - 0x1D00000000) / 128 * 4) true 2 true).tokenRefused n 8
    else if !(decide (0x1000000000 ≤ a ∧ a < 0x1009000000)) then s.tokenRefused n 7
    else
      let tile := a / 2 ^ 20 % 256
      if !s.reachable tile then (s.refuseUnreachable tile (a % 2 ^ 20) 148 rqTag a false).tokenRefused n 6
      else if s.spBusy tile (a % 2 ^ 20) .feSet then s
      else
        let seq := ((s.rd (Reg.STR n 0x34)).toNat + 1) % 2 ^ 32
        match s.feAt tile (s.spWord tile (a % 2 ^ 20)) (.feWrite (s.tokenBytes n seq f)) with
        | (.done .., s) =>
          let dis := (s.strm n).discont
          let s := s.wr (Reg.STR n 0x34) (BitVec.ofNat 32 seq)
          let s := s.modStrm n fun (x : Strm) => { x with ready := rest, held := x.held ++ [(seq, f.buf)], dropped := 0, discont := false }
          let s := s.showStrm n
          let s := { s with svc := { s.svc with frames := s.svc.frames + 1 } }
          if dis then (s.noteGap true n seq).raise 0x4002 n (2 ^ 32 * seq) else s
        | (.notReady, s) => s
        | (.refused, s) => s.tokenRefused n 5

/-- STR_REL written s: DELIVERED frames up to that SEQ are released (R467). -/
def State.strRelease (s : State) (n : Nat) (v : Word) : State :=
  let keep := fun (p : Nat × Nat) => decide (0 < sInt 32 ((p.1 + 2 ^ 32 - v.toNat) % 2 ^ 32))
  (s.modStrm n fun x => { x with held := x.held.filter keep }).showStrm n

/-- The frame in assembly is discarded and its buffer freed, without a count (R480, R481). -/
def State.discardFrame (s : State) (n : Nat) : State := s.modStrm n fun x => { x with asm := none, dropping := none }

/-- A write of STR_CTRL took effect: `was` is EN before it (R458, R480). -/
def State.strCtrl (s : State) (n : Nat) (was : Bool) : State :=
  let en := s.bit (Reg.STR n 0) 0
  if en && !was then
    ((((s.strApply n).setStrm n {}).wr (Reg.STR n 0x34) 0).setStrState n 1).showStrm n
  else if !en && was then (((s.discardFrame n).setStrState n 0).strApply n).showStrm n
  else if !en then s.strApply n
  else s

/-- Entry of stream n to LOST (R481). -/
def State.enterLost (s : State) (n : Nat) (fault : Bool) : State :=
  let seq := (s.rd (Reg.STR n 0x34)).toNat
  ((((s.discardFrame n).setStrState n 3).showStrm n).noteGap false n seq).raise 0x4001 n (b2n fault + 2 ^ 32 * seq)

/-- A stream is LOST, by a link fault or by silence (R481). -/
def State.streamLost (s : State) (n : Nat) (fault : Bool) : State :=
  let st := s.strState n
  if !s.bit (Reg.STR n 0) 0 ∨ st = 3 ∨ st = 0 then s
  else if fault ∧ s.bit (Reg.MAC_STAT (s.strF n 0 2 1)) 0 then s
  else if !fault ∧ s.strF n 0x28 31 16 = 0 then s
  else s.enterLost n fault

end Sys2Proof.Machine
end

