-- ==== Sys2Proof/Machine/Yarder.lean ====
section
/-! DEFINITION. The Yarder (chapter 13): flits, credits, retry and failover, link groups, windows and their close. -/

namespace Sys2Proof.Machine
open Sys2Proof

/-- Link k beyond its registers. -/
def State.link (s : State) (k : Nat) : Link := s.links.get {} k
def State.setLink (s : State) (k : Nat) (l : Link) : State := { s with links := s.links.set {} k l }
def State.modLink (s : State) (k : Nat) (f : Link → Link) : State := s.setLink k (f (s.link k))

/-! YARDER_STAT.STATE -/
def lkDown : Nat := 0
def lkTraining : Nat := 1
def lkHandshake : Nat := 2
def lkUp : Nat := 3
def lkSleep : Nat := 4
def lkFailed : Nat := 5

/-- STATE of link k. -/
def State.lstate (s : State) (k : Nat) : Nat := s.getF (Reg.YARDER k Reg.YARDER_STAT) 2 0

/-- Set STATE; YARDER_PEER reads 0 while the link is not UP. -/
def State.setLstate (s : State) (k st : Nat) : State :=
  let s := s.setF (Reg.YARDER k Reg.YARDER_STAT) 2 0 st
  if st = lkUp then s else s.wr (Reg.YARDER k Reg.YARDER_PEER) 0

/-- Unacknowledged DATA flits of a link, those of a pending failover included. -/
def Link.flits (l : Link) : Nat := l.retry.length + (match l.lost with | some f => f.retry.length | none => 0)

/-- UNACK follows the retry buffer. -/
def State.showUnack (s : State) (k : Nat) : State :=
  s.setF (Reg.YARDER k Reg.YARDER_STAT) 11 4 (s.link k).flits

/-- The chip at the other end of link k, by its HELLO. -/
def State.partnerChip (s : State) (k : Nat) : Option Nat := (s.link k).partner.map fun h => h.chip.toNat

/-! ### Groups and routes (R427 to R429) -/

/-- The UP links toward chip c. -/
def State.group (s : State) (c : Nat) : List Nat :=
  (List.range 64).filter fun k => s.lstate k == lkUp && s.partnerChip k == some c

/-- The failover of link k that is pending toward chip c. -/
def State.lostTo (s : State) (c k : Nat) : Option Failover := (s.link k).lost.filter fun f => f.peer.chip.toNat == c

/-- The links whose flows toward chip c stand: the UP ones, and those whose failover is pending (R431). -/
def State.flowLinks (s : State) (c : Nat) : List Nat :=
  (List.range 64).filter fun k => (s.lstate k == lkUp && s.partnerChip k == some c) || (s.lostTo c k).isSome

/-- The chip through which packets for chip c leave: c itself, or YFAB_ROUTEc.NEXT (R428). -/
def State.nextHop (s : State) (c : Nat) : Option Nat :=
  if s.group c ≠ [] then some c
  else
    let n := s.getF (Reg.YFAB_ROUTE c) 7 0
    if n ≠ 0xFF ∧ s.group n ≠ [] then some n else none

/-! ### Flits (R410 to R414) -/

/-- The bytes of a packet: header and data words (R419). -/
def packetBytes (p : Packet) : List Byte :=
  leBytes 1 p.type.toNat ++ leBytes 1 (p.vc.toNat + 4 * p.nword.toNat) ++ leBytes 1 p.src.toNat ++
  leBytes 1 p.dst.toNat ++ leBytes 3 p.tag.toNat ++ leBytes 1 (p.status.toNat + 16 * p.hops.toNat) ++
  leBytes 5 p.addr.toNat ++ leBytes 1 p.size.toNat ++ leBytes 2 p.poison.toNat ++
  (p.data ++ List.replicate (64 * p.nword.toNat) 0).take (64 * p.nword.toNat)

/-- The packet that a list of bytes begins with. -/
def packetOf (b : List Byte) : Packet :=
  let n := leAt b 1 1 / 4 % 32
  { type := BitVec.ofNat 8 (leAt b 0 1), vc := BitVec.ofNat 2 (leAt b 1 1), nword := BitVec.ofNat 5 n,
    src := BitVec.ofNat 8 (leAt b 2 1), dst := BitVec.ofNat 8 (leAt b 3 1), tag := BitVec.ofNat 24 (leAt b 4 3),
    status := BitVec.ofNat 4 (leAt b 7 1), hops := BitVec.ofNat 2 (leAt b 7 1 / 16),
    addr := BitVec.ofNat 40 (leAt b 8 5), size := BitVec.ofNat 8 (leAt b 13 1),
    poison := BitVec.ofNat 16 (leAt b 14 2), data := (b.drop 16).take (64 * n) }

/-- Units of 8 bytes that a packet occupies. -/
def packetUnits (p : Packet) : Nat := 2 + 8 * p.nword.toNat

/-- A flit: its header fields, payload and CRC (Table 13-1). -/
def flitBytes (kind seq ack : Nat) (ackv nak : Bool) (crvc crcnt : Nat) (payload : List Byte) : List Byte :=
  let b := leBytes 4 (kind + 4 * (seq % 256) + 2 ^ 10 * (ack % 256) + 2 ^ 18 * b2n ackv + 2 ^ 19 * b2n nak +
      2 ^ 20 * crvc + 2 ^ 22 * crcnt) ++ (payload ++ List.replicate 248 0).take 248
  b ++ leBytes 4 (crc32 b)

/-- Split a list into pieces of `n`, at most `fuel` of them. -/
def pieces {α : Type} (n : Nat) : Nat → List α → List (List α)
  | 0, _ => []
  | _ + 1, [] => []
  | fuel + 1, l => l.take n :: pieces n fuel (l.drop n)

/-- The last accepted SEQ of link k. -/
def Link.ack (l : Link) : Nat := (l.rxSeq + 255) % 256

/-- An IDLE flit of link k with an acknowledgement and returned credits (R412, R414, R416). -/
def State.sendIdle (s : State) (k : Nat) (nak : Bool) (crvc crcnt : Nat) : State :=
  let l := s.link k
  s.emit (.flit k (flitBytes 0 0 l.ack l.rxAny nak crvc crcnt []))

/-- Send the bytes of packets as DATA flits that no other packet shares, each kept in the retry buffer (R411, R413). -/
def State.sendFlits (s : State) (k : Nat) (b : List Byte) (ps : List Packet) : State :=
  let fl := pieces 248 8 b
  let step := fun (s : State) (x : List Byte × Nat) =>
    let l := s.link k
    let last := decide (x.2 + 1 = fl.length)
    (s.setLink k { l with txSeq := (l.txSeq + 1) % 256,
                          retry := l.retry ++ [⟨l.txSeq, x.1, if last then ps else []⟩] }).emit
      (.flit k (flitBytes 1 l.txSeq l.ack l.rxAny false 0 0 x.1))
  (fl.zipIdx.foldl step s).showUnack k

/-! ### Credits (R415, R416) -/

/-- Register and low bit of a VC's credit count. -/
def credField (vc : Nat) : Nat × Nat := (if vc < 2 then Reg.YARDER_CRED0 else Reg.YARDER_CRED1, if vc % 2 = 0 then 0 else 16)
/-- Credits of link k for a VC. -/
def State.credit (s : State) (k vc : Nat) : Nat :=
  let (r, b) := credField vc
  s.getF (Reg.YARDER k r) (b + 11) b
/-- Set them. -/
def State.setCredit (s : State) (k vc n : Nat) : State :=
  let (r, b) := credField vc
  s.setF (Reg.YARDER k r) (b + 11) b n

/-! ### Sending (R416, R422, R423, R428, R429) -/

/-- The agent whose tag a request of this chip carries; a response, and a request of another chip, names none. -/
def State.requester (s : State) (p : Packet) : Nat :=
  if p.src.toNat = s.chipId ∧ (p.vc = 0#2 ∨ p.vc = 2#2) then (s.txn p.tag.toNat).elim 0 (fun t => t.agent) else 0

/-- May packet q follow p in one WR_BULK: the next whole word of the same tile, of the same requester (R422). -/
def State.coalesces (s : State) (p q : Packet) : Bool :=
  q.type == 0x02#8 && q.size == 0#8 && q.dst == p.dst && q.src == p.src && q.addr.toNat == p.addr.toNat + 64 &&
    q.addr.toNat / 2 ^ 20 == p.addr.toNat / 2 ^ 20 && s.requester q == s.requester p

/-- The run of packets at the head of a list that coalesce with p, at most `n`. -/
def State.bulkRun (s : State) : Nat → Packet → List Packet → List Packet
  | 0, _, _ => []
  | _ + 1, _, [] => []
  | n + 1, p, q :: qs => if s.coalesces p q then q :: bulkRun s n q qs else []

/-- The lowest bulk ID not in use on link k. -/
def Link.freeBulk (l : Link) : Option Nat := (List.range 64).find? fun i => l.bulk.get [] i == []

/-- The WR_BULK packet of a run of WRs under a bulk ID. -/
def bulkPacket (id : Nat) (p : Packet) (run : List Packet) : Packet :=
  { p with type := 0x20, vc := 2, nword := BitVec.ofNat 5 (run.length + 1), tag := BitVec.ofNat 24 id,
           poison := BitVec.ofNat 16 (((p :: run).zipIdx.map fun x => b2n (x.1.poison.getLsbD 0) * 2 ^ x.2).sum),
           data := (p :: run).flatMap fun q => (q.data ++ List.replicate 64 0).take 64 }

/-- The handshake packets, which open the credits and are sent without them (R424). -/
def isHandshake (p : Packet) : Bool := p.type == 0x30#8 || p.type == 0x31#8

/-- The first packet of a list that link k may send now: handshake packets always, others while UP with credits; of one
VC only the first, and responses and control never behind requests (R416 to R418, R424). -/
def State.sendable (s : State) (k : Nat) (q : List Packet) : Option Packet :=
  let head := fun (vc : Nat) => q.find? fun p => p.vc.toNat == vc
  let fits := fun (p : Packet) =>
    isHandshake p || (s.lstate k == lkUp && decide (packetUnits p ≤ s.credit k p.vc.toNat))
  [3, 1, 0, 2].findSome? fun vc => (head vc).bind fun p => if fits p then some p else none

/-- Send the packets of link k that may leave, oldest first in each VC, while fewer than 128 DATA flits are
unacknowledged (R414); `fuel` bounds them. -/
def State.pump (s : State) (k : Nat) : Nat → State
  | 0 => s
  | fuel + 1 =>
    let l := s.link k
    match s.sendable k l.txq with
    | none => s
    | some p =>
      if 128 < l.flits + (packetUnits p + 30) / 31 then s
      else
        let reqs := l.txq.filter fun q => q.vc == 0#2
        let run := if p.type = 0x02#8 ∧ p.size = 0#8 ∧ p.src.toNat = s.chipId then s.bulkRun 15 p (reqs.drop 1) else []
        let bulk := match l.freeBulk with
          | some id =>
            let b := bulkPacket id p run
            if run ≠ [] ∧ packetUnits b ≤ s.credit k 2 ∧ l.flits + (packetUnits b + 30) / 31 ≤ 128 then some (id, b)
            else none
          | none => none
        match bulk with
        | some (id, b) =>
          let l' := { l with txq := l.txq.filter (fun q => !((p :: run).contains q)),
                             bulk := l.bulk.set [] id ((p :: run).map fun q => q.tag.toNat) }
          (((s.setLink k l').setCredit k 2 (s.credit k 2 - packetUnits b)).sendFlits k
            (packetBytes b ++ List.replicate 8 0) (p :: run)).pump k fuel
        | none =>
          let s' := s.setLink k { l with txq := l.txq.erase p }
          let vc := p.vc.toNat
          let s' := if isHandshake p then s' else s'.setCredit k vc (s.credit k vc - packetUnits p)
          (s'.sendFlits k (packetBytes p ++ List.replicate 8 0) [p]).pump k fuel

/-- Put a packet in the queue of link k and send what may leave. -/
def State.enqueue (s : State) (k : Nat) (p : Packet) : State :=
  let s := s.modLink k fun l => { l with txq := l.txq ++ [p] }
  s.pump k (s.link k).txq.length

/-- The link among `ls` for a packet's flow (R429). -/
def State.chooseLink (s : State) (ls : List Nat) (p : Packet) : Option Nat :=
  match ls with
  | [] => none
  | l :: _ =>
    some (ls.getD (Config.flowHash p.src.toNat (s.requester p) p.dst.toNat (p.addr.toNat / 2 ^ 20 % 256) % ls.length) l)

/-- A packet whose flow stands on link k: while a failover of the link is pending it waits for the end of that (R431). -/
def State.flowPacket (s : State) (k : Nat) (p : Packet) : State :=
  match (s.link k).lost with
  | some f => s.modLink k fun l => { l with lost := some { f with txq := f.txq ++ [p] } }
  | none => s.enqueue k p

/-- Send a packet toward its DST: through the group or the route, or discard it with event 0x3004 (R428). -/
def State.sendPacket (s : State) (p : Packet) : State :=
  match s.nextHop p.dst.toNat with
  | none => s.raise 0x3004 s.chipId p.dst.toNat
  | some c =>
    match s.chooseLink (s.flowLinks c) p with
    | some k => s.flowPacket k p
    | none => s

/-- Send a packet of link control through an UP link toward chip c. -/
def State.sendCtrl (s : State) (c type tag addr poison : Nat) (data : List Byte := []) : State :=
  s.sendPacket
    { type := BitVec.ofNat 8 type, vc := 3, nword := BitVec.ofNat 5 ((data.length + 63) / 64), src := BitVec.ofNat 8 s.chipId,
      dst := BitVec.ofNat 8 c, tag := BitVec.ofNat 24 tag, status := 0, hops := 0, addr := BitVec.ofNat 40 addr,
      size := 0, poison := BitVec.ofNat 16 poison, data := data }

/-- Forward a packet whose DST is another chip (R428). -/
def State.forward (s : State) (p : Packet) : State :=
  if p.hops = 3#2 then s.raise 0x3004 s.chipId (p.dst.toNat + 256) else s.sendPacket { p with hops := p.hops + 1 }

/-! ### A request of this chip to another one (R108, R420) -/

/-- The packets' common header of a request at a 48-bit global address. -/
def State.requestPacket (s : State) (tag addr type nword size : Nat) (data : List Byte) (poison : Bool) : Packet :=
  { type := BitVec.ofNat 8 type, vc := 0, nword := BitVec.ofNat 5 nword, src := BitVec.ofNat 8 s.chipId,
    dst := BitVec.ofNat 8 (addr / 2 ^ 40), tag := BitVec.ofNat 24 tag, status := 0, hops := 0,
    addr := BitVec.ofNat 40 addr, size := BitVec.ofNat 8 size, poison := BitVec.ofNat 16 (b2n poison), data := data }

/-- SIZE of an access of `len` bytes at an address: 0 for a whole word. -/
def sizeCode (addr len : Nat) : Nat := if addr % 64 = 0 ∧ len = 64 then 0 else len

/-- Send the request of a transaction to another chip; a write's data word holds each byte in its lane. -/
def State.sendRequest (s : State) (tag : Nat) (t : Txn) (poison : Bool := false) : State :=
  let a := t.addr
  let lane := fun (bs : List Byte) (lo : Nat) => (placeAt lo bs ++ List.replicate 64 0).take 64
  match t.op with
  | .read n => s.sendPacket (s.requestPacket tag a 0x01 0 (sizeCode a n) [] false)
  | .write segs =>
    match segs with
    | [] => s
    | g :: _ => s.sendPacket (s.requestPacket tag (a + g.1) 0x02 1 (sizeCode (a + g.1) g.2.length)
        (lane g.2 ((a + g.1) % 64)) poison)
  | .feRead sc => s.sendPacket (s.requestPacket tag a 0x03 0 (if sc then 8 else 0) [] false)
  | .feWrite d => s.sendPacket (s.requestPacket tag a 0x04 1 (if d.length = 64 then 0 else d.length) (lane d 0) poison)
  | .fePeek => s.sendPacket (s.requestPacket tag a 0x05 0 0 [] false)
  | .feSet => s.sendPacket (s.requestPacket tag a 0x06 0 0 [] false)
  | .feClear => s.sendPacket (s.requestPacket tag a 0x07 0 0 [] false)

/-! ### Release of tags and DRAINED (R438) -/

/-- Answer DRAINED for every CLOSE_NOTE whose marked tags are all released. -/
def State.answerDrained (s : State) : State :=
  let ready := s.closeNotes.filter fun c => c.tags.isEmpty
  ready.foldl (fun s c => s.sendCtrl c.chip 0x34 c.win 0 0)
    { s with closeNotes := s.closeNotes.filter fun (c : NoteWait) => !c.tags.isEmpty }

/-- The CLOSE_NOTEs that waited for a tag are answered. -/
def State.tagFreed (s : State) (tag : Nat) : State :=
  State.answerDrained
    { s with closeNotes := s.closeNotes.map fun (c : NoteWait) => { c with tags := c.tags.filter (· != tag) } }

/-- Release a tag, and answer the CLOSE_NOTEs that waited for it. -/
def State.releaseTag (s : State) (tag : Nat) : State := (s.freeTag tag).tagFreed tag

/-- The Choker frees a tag by expiry or cancel: the transaction goes, or where its request or its response may still be on
its way, stays for what comes late (R396 to R398). -/
def State.cutTag (s : State) (tag : Nat) : State :=
  match s.txn tag with
  | none => s
  | some t => match t.st with
    | .held | .lost => s.releaseTag tag
    | _ => (s.setTxn tag { t with freed := true }).tagFreed tag

/-- A requester cancels its full/empty request: its target drops the waiter, and the tag is released (R397). -/
def State.cancelTag (s : State) (tag : Nat) : State :=
  { s with tiles := s.tiles.map fun (p : Nat × Tile) =>
    (p.1, { p.2 with waiters := p.2.waiters.filter fun w => w.tag != some tag }) }.cutTag tag

/-- CLOSE_NOTE of window w of chip c: mark the held tags whose address lies in it (R438). -/
def State.closeNote (s : State) (c w base len : Nat) : State :=
  let tags := (s.tagList.filter fun p => decide (p.2.addr / 2 ^ 40 = c ∧ base < p.2.addr % 2 ^ 40 + p.2.op.span ∧
      p.2.addr % 2 ^ 40 < base + 64 * (len + 1))).map fun p => p.1
  State.answerDrained { s with closeNotes := s.closeNotes ++ [NoteWait.mk c w tags] }

/-! ### Link state (R424 to R433, R447 to R449) -/

/-- Start of training: SEQ, buffers and the handshake begin anew; a pending failover stays. -/
def State.startTraining (s : State) (k : Nat) : State :=
  let slow := s.bit (Reg.YARDER k Reg.YARDER_CTRL) 1
  (s.modLink k fun l => { l with fails := 0, slow := slow, partner := none, acked := none, retrain := false,
                                 retry := [], rxBuf := [], txSeq := 0, rxSeq := 0, rxAny := false, resent := 0 })
    |>.setLstate k lkTraining |>.setF (Reg.YARDER k Reg.YARDER_STAT) 3 3 (b2n slow) |>.showUnack k

/-- May link k leave DOWN: EN 1, and a good slot code for a rear link (R449). -/
def State.linkMayRun (s : State) (k : Nat) : Bool :=
  s.bit (Reg.YARDER k Reg.YARDER_CTRL) 0 && (decide (k < 24) || s.slotOk)

/-- The packets of flits. -/
def flitPackets (fs : List TxFlit) : List Packet := fs.flatMap fun f => f.packets

/-- The group toward chip c has ceased: the retry buffers of its lost links are discarded with event 0x3002, and what
was still queued seeks another way (R432). -/
def State.groupLost (s : State) (c : Nat) : State :=
  let ks := (List.range 64).filter fun k => (s.lostTo c k).isSome
  let fs := ks.filterMap fun k => s.lostTo c k
  let s := ks.foldl (fun s k => (s.modLink k fun l => { l with lost := none, bulk := [] }).showUnack k) s
  (fs.flatMap fun f => f.txq).foldl (fun s p => s.sendPacket p)
    (s.raise 0x3002 c (fs.map fun f => (flitPackets f.retry).length).sum)

/-- Link k leaves UP for state `st` with packets still on it: its credits are void, and the FAILOVER goes out on a surviving
link of its group, or the group ceases (R431, R432).  A second link of a group restarts the count of those before. -/
def State.failover (s : State) (k st : Nat) : State :=
  match (s.link k).partner with
  | none => s.setLstate k st
  | some h =>
    let c := h.chip.toNat
    let last := (s.link k).ack
    let s := (s.setLstate k st).wr (Reg.YARDER k Reg.YARDER_CRED0) 0 |>.wr (Reg.YARDER k Reg.YARDER_CRED1) 0
    let s := s.modLink k fun l =>
      { l with lost := some { since := s.now, peer := h, retry := l.retry, txq := (l.lost.elim [] (·.txq)) ++ l.txq },
               retry := [], txq := [], retrain := st == lkFailed, rxBuf := [], resent := 0 }
    match s.group c with
    | [] => s.groupLost c
    | j :: _ =>
      let s := { s with links := s.links.map fun (p : Nat × Link) =>
        (p.1, { p.2 with lost := p.2.lost.map fun (f : Failover) =>
          if f.peer.chip.toNat = c then { f with since := s.now } else f }) }
      s.enqueue j { type := 0x32, vc := 3, nword := 0, src := BitVec.ofNat 8 s.chipId, dst := BitVec.ofNat 8 c,
                    tag := BitVec.ofNat 24 (k + 256 * last), status := 0, hops := 0, addr := 0, size := 0, poison := 0,
                    data := [] }

/-- Link k is lost (R430): failover starts on the surviving links of its group, or the group ceases.  A link that is not yet UP
goes back to training. -/
def State.linkFail (s : State) (k : Nat) : State :=
  if s.lstate k = lkUp then s.failover k lkFailed
  else if s.lstate k = lkHandshake then s.startTraining k else s

/-- The packets of the flits after SEQ `last`. -/
def Failover.after (f : Failover) (last : Nat) : List Packet :=
  let i := f.retry.findIdx fun x => x.seq == last
  flitPackets (if i < f.retry.length then f.retry.drop (i + 1) else f.retry)

/-- The link that chip `src` names as its link `peer`: one whose failover is pending, or one that is UP. -/
def State.namedLink (s : State) (src peer : Nat) : Option Nat :=
  let isIt := fun (h : HelloWord) => h.chip.toNat == src && h.link.toNat == peer
  ((List.range 64).find? fun k => (s.link k).lost.any fun f => isIt f.peer).or
    ((List.range 64).find? fun k => s.lstate k == lkUp && (s.link k).partner.any isIt)

/-- The partner's FAILOVER: its lost link, and the last SEQ it accepted there.  The lost link's flows move, the packets it
did not accept go first, and a link that was lost retrains (R431). -/
def State.failoverFrom (s : State) (src lost last : Nat) : State :=
  match s.namedLink src lost with
  | none => s
  | some k =>
    let s := if (s.link k).lost.isNone then s.linkFail k else s
    match (s.link k).lost with
    | none => s
    | some f =>
      let again := f.after last
      let tags := (again.filter fun p => p.src.toNat == s.chipId && p.type == 0x02#8).map fun p => p.tag.toNat
      let s := (s.modLink k fun l => { l with
        lost := none, bulk := l.bulk.filter fun x => !(x.2.any fun t => tags.contains t) }).showUnack k
      let s := (again ++ f.txq).foldl (fun s p => s.sendPacket p) s
      let s := if s.lstate k = lkFailed && (s.link k).retrain then s.startTraining k else s
      s.raise 0x3001 k (src + 2 ^ 16 * min ((s.now - f.since) / 100) 65535)

/-- The fields of this chip's HELLO on link k (Table 13-6). -/
def State.helloWord (s : State) (k : Nat) : HelloWord :=
  let pos := s.rd Reg.CHIP_POS
  { magic := 0x31445259, version := 1, chip := BitVec.ofNat 8 s.chipId,
    position := BitVec.ofNat 8 (Sys2Proof.fld pos 7 4 + 16 * Sys2Proof.fld pos 1 0 + 64 * Sys2Proof.fld pos 9 9),
    link := BitVec.ofNat 8 k, rate := BitVec.ofNat 8 (b2n (s.link k).slow), features := 3,
    credReq := 1024, credRsp := 1024, credBulk := 2048, credCtrl := 128, retry := 128, uid := Config.uid,
    stamp := BitVec.ofNat 64 s.nclk, echo := 0, hold := 0 }

/-- The 64 bytes of a HELLO data word. -/
def helloBytes (h : HelloWord) : List Byte :=
  leBytes 4 h.magic.toNat ++ leBytes 1 h.version.toNat ++ leBytes 1 h.chip.toNat ++ leBytes 1 h.position.toNat ++
  leBytes 1 h.link.toNat ++ leBytes 1 h.rate.toNat ++ leBytes 1 h.features.toNat ++ leBytes 2 h.credReq.toNat ++
  leBytes 2 h.credRsp.toNat ++ leBytes 2 h.credBulk.toNat ++ leBytes 2 h.credCtrl.toNat ++ leBytes 1 h.retry.toNat ++
  leBytes 1 0 ++ leBytes 8 h.uid.toNat ++ leBytes 8 h.stamp.toNat ++ leBytes 8 h.echo.toNat ++ leBytes 4 h.hold.toNat ++
  leBytes 16 0

/-- The fields of a HELLO data word. -/
def helloOf (b : List Byte) : HelloWord :=
  { magic := BitVec.ofNat 32 (leAt b 0 4), version := BitVec.ofNat 8 (leAt b 4 1), chip := BitVec.ofNat 8 (leAt b 5 1),
    position := BitVec.ofNat 8 (leAt b 6 1), link := BitVec.ofNat 8 (leAt b 7 1), rate := BitVec.ofNat 8 (leAt b 8 1),
    features := BitVec.ofNat 8 (leAt b 9 1), credReq := BitVec.ofNat 16 (leAt b 10 2),
    credRsp := BitVec.ofNat 16 (leAt b 12 2), credBulk := BitVec.ofNat 16 (leAt b 14 2),
    credCtrl := BitVec.ofNat 16 (leAt b 16 2), retry := BitVec.ofNat 8 (leAt b 18 1),
    uid := BitVec.ofNat 64 (leAt b 20 8), stamp := BitVec.ofNat 64 (leAt b 28 8), echo := BitVec.ofNat 64 (leAt b 36 8),
    hold := BitVec.ofNat 32 (leAt b 44 4) }

/-- Send a HELLO or HELLO_ACK to chip `dst` on link k itself. -/
def State.sendHello (s : State) (k type : Nat) (dst : Byte) (h : HelloWord) : State :=
  s.enqueue k { type := BitVec.ofNat 8 type, vc := 3, nword := 1, src := BitVec.ofNat 8 s.chipId, dst := dst, tag := 0,
                status := 0, hops := 0, addr := 0, size := 0, poison := 0, data := helloBytes h }

/-- Training of link k ended (R424, R447): the HELLO goes to a partner whose chip ID is not known yet, and the spec does not
say what its DST then holds (a free value, log 72). -/
def State.trained (s : State) (k : Nat) (ok : Bool) (settings : Nat) : State :=
  let st := s.lstate k
  if !(st == lkTraining || (st == lkFailed && (s.link k).retrain)) then s
  else
    let s := if st = lkTraining then s else s.startTraining k
    if ok then
      let s := (s.wr (Reg.YARDER k Reg.YARDER_TRAIN) (BitVec.ofNat 32 settings)).setLstate k lkHandshake
      let (dst, s) := s.draw 8
      s.sendHello k 0x30 dst (s.helloWord k)
    else
      let l := s.link k
      if l.fails + 1 < 3 then s.setLink k { l with fails := l.fails + 1 }
      else if l.slow then (s.setLink k { l with fails := 0 }).setLstate k lkFailed
      else ((s.setLink k { l with fails := 0, slow := true }).setF (Reg.YARDER k Reg.YARDER_STAT) 3 3 1).raise 0x3007 k

/-- The position of the peer that R16 assigns to on-tray link k of the chip at position p. -/
def trayPeer (p k : Nat) : Nat := if k / 8 < p then k / 8 else k / 8 + 1

/-- Does the partner of an on-tray link report this chip's tray: a chip whose SLOT_OK is 0 belongs to none (R96), so both
belong to the same tray, or neither to any (DEDUCED, log 64). -/
def State.sameTray (s : State) (pos : Nat) : Bool :=
  s.slotOk == decide (pos / 64 % 2 = 1) && (!s.slotOk || pos % 16 == s.getF Reg.CHIP_POS 7 4)

/-- Why a partner's fields keep link k from UP (R426), as event 0x3003 numbers it. -/
def State.helloFault (s : State) (k : Nat) (h : HelloWord) : Option Nat :=
  let pos := h.position.toNat
  if h.magic ≠ 0x31445259#32 then some 0
  else if h.version ≠ 1#8 then some 1
  else if h.chip.toNat = s.chipId then some 2
  else if 24 ≤ k ∧ (pos / 64 % 2 = 0 ∨ !s.slotOk) then some 3
  else if k < 24 ∧ (!s.sameTray pos ∨ pos / 16 % 4 ≠ trayPeer s.pos k) then some 4
  else none

/-- The handshake of link k is rejected (R426). -/
def State.rejectHello (s : State) (k chip reason : Nat) : State :=
  let s := (s.setLstate k lkFailed).raise 0x3003 k (chip + 256 * reason)
  if reason = 2 then { s with svc := { s.svc with sameId := true } } else s

/-- Entry to UP once a HELLO and an acknowledgement are here (R424, R425). -/
def State.tryUp (s : State) (k : Nat) : State :=
  let l := s.link k
  match l.partner, l.acked with
  | some h, some cyc =>
    if s.lstate k ≠ lkHandshake then s
    else
      let s := s.setLink k { l with retry := [], txSeq := 0, rxSeq := 0, rxAny := false, rxBuf := [], resent := 0 }
      let s := (s.setLstate k lkUp).showUnack k
      let s := s.setCredit k 0 h.credReq.toNat |>.setCredit k 1 h.credRsp.toNat |>.setCredit k 2 h.credBulk.toNat
        |>.setCredit k 3 h.credCtrl.toNat
      let s := s.wr (Reg.YARDER k Reg.YARDER_PEER) (BitVec.ofNat 32 (h.chip.toNat + 2 ^ 8 * h.position.toNat +
        2 ^ 16 * (h.link.toNat % 64) + 2 ^ 24 * (h.rate.toNat % 2) + 2 ^ 25 * (h.features.toNat % 4) +
        2 ^ 27 * (h.version.toNat % 32)))
      let s := s.wr64 (Reg.YARDER k Reg.YARDER_UID_LO) h.uid.toNat
      let s := s.wr (Reg.YARDER k Reg.YARDER_RTT) (BitVec.ofNat 32 (min ((cyc * 5 + 7) / 8) 65535))
      s.pump k l.txq.length
  | _, _ => s

/-- A HELLO arrives on link k: it is answered, and recorded during the handshake (R424 to R426). -/
def State.helloIn (s : State) (k : Nat) (h : HelloWord) : State :=
  if s.lstate k = lkHandshake ∨ s.lstate k = lkUp then
    let s := s.sendHello k 0x31 h.chip { s.helloWord k with echo := h.stamp }
    if s.lstate k ≠ lkHandshake then s
    else match s.helloFault k h with
      | some r => s.rejectHello k h.chip.toNat r
      | none => (s.modLink k fun l => { l with partner := some h }).tryUp k
  else s

/-- A HELLO_ACK arrives on link k (R424 to R426). -/
def State.helloAckIn (s : State) (k : Nat) (h : HelloWord) : State :=
  if s.lstate k = lkHandshake then
    match s.helloFault k h with
    | some r => s.rejectHello k h.chip.toNat r
    | none =>
      let cyc := (s.nclk + 2 ^ 64 - h.echo.toNat) % 2 ^ 64 - h.hold.toNat
      (s.modLink k fun l => { l with acked := some cyc }).tryUp k
  else s

/-! ### Receiving flits (R413, R414, R416, R430, R444) -/

/-- The retry buffer after an acknowledgement of SEQ `a`. -/
def Link.acked? (l : Link) (a : Nat) : Link :=
  let i := l.retry.findIdx fun f => f.seq == a
  if i < l.retry.length then { l with retry := l.retry.drop (i + 1), resent := 0 } else l

/-- Resend every flit of the retry buffer, counting it (R413, R444); a flit resent 4 times without an acknowledgement
loses the link (R430). -/
def State.resend (s : State) (k : Nat) : State :=
  let l := s.link k
  if l.retry = [] then s
  else if 4 ≤ l.resent then s.linkFail k
  else
    let sec := s.now / 1000000000
    let n := l.retry.length
    let before := if l.replaySec = sec then l.replays else 0
    let s := l.retry.foldl (fun s f => s.emit (.flit k (flitBytes 1 f.seq l.ack l.rxAny false 0 0 f.payload))) s
    let s := s.setLink k { l with resent := l.resent + 1, replaySec := sec, replays := before + n }
    let s := s.countBy (Reg.YARDER k Reg.YARDER_REPLAY) n
    if before ≤ 1000 ∧ 1000 < before + n then s.raise 0x3005 k (before + n) else s

/-- The packets that a stream of units begins with, and the bytes of an unfinished one; a PAD unit ends them (R411). -/
def parseStream : Nat → List Byte → List Packet × List Byte
  | 0, b => ([], b)
  | fuel + 1, b =>
    if b = [] then ([], [])
    else if leAt b 0 1 = 0 then ([], [])
    else if b.length < 16 then ([], b)
    else
      let n := 16 + 64 * (leAt b 1 1 / 4 % 32)
      if b.length < n then ([], b)
      else
        let (ps, rest) := parseStream fuel (b.drop n)
        (packetOf b :: ps, rest)

/-- The link layer of a received flit: the state after it, and the packets it completed. -/
def State.flitIn (s : State) (k : Nat) (f : List Byte) : List Packet × State :=
  if !(s.lstate k == lkUp || s.lstate k == lkHandshake) then ([], s)
  else if f.length ≠ 256 ∨ crc32 (f.take 252) ≠ leAt f 252 4 then
    ([], (s.count (Reg.YARDER k Reg.YARDER_CRC_ERR)).sendIdle k true 0 0)
  else
    let h := leAt f 0 4
    let kind := h % 4
    if 2 ≤ kind then ([], s)
    else
      let s := if h / 2 ^ 18 % 2 = 1 then (s.modLink k fun l => l.acked? (h / 2 ^ 10 % 256)).showUnack k else s
      let vc := h / 2 ^ 20 % 4
      let s := if s.lstate k = lkUp then s.setCredit k vc (min (s.credit k vc + h / 2 ^ 22 % 256) 4095) else s
      let s := if h / 2 ^ 19 % 2 = 1 then s.resend k else s
      let l := s.link k
      let (ps, s) :=
        if kind = 0 then ([], s)
        else if h / 4 % 256 = l.rxSeq then
          let (ps, rest) := parseStream 32 (l.rxBuf ++ (f.drop 4).take 248)
          (ps, (s.setLink k { l with rxSeq := (l.rxSeq + 1) % 256, rxAny := true, rxBuf := rest }).sendIdle k false 0 0)
        else ([], s.sendIdle k true 0 0)
      (ps, s.pump k (s.link k).txq.length)

/-- The VC and NWORD that Table 13-4 gives a TYPE, and chapter 17 the power messages; every other TYPE is invalid. -/
def packetValid (p : Packet) : Bool :=
  let n := p.nword.toNat
  let served := decide (p.status.toNat ≤ 1)
  match p.type.toNat with
  | 0x01 | 0x03 | 0x05 | 0x06 | 0x07 => p.vc == 0#2 && n == 0
  | 0x02 | 0x04 => p.vc == 0#2 && n == 1
  | 0x10 => p.vc == 1#2 && n == (if p.status = 0#4 then 1 else 0)
  | 0x11 | 0x21 => p.vc == 1#2 && n == 0
  | 0x12 => p.vc == 1#2 && (if served then decide (n ≤ 1) else n == 0)
  | 0x20 => p.vc == 2#2 && decide (1 ≤ n ∧ n ≤ 16)
  | 0x30 | 0x31 => p.vc == 3#2 && n == 1
  | 0x32 | 0x33 | 0x34 => p.vc == 3#2 && n == 0
  | 0x40 | 0x41 | 0x42 => p.vc == 3#2 && n == 1
  | _ => false

/-! ### Register writes of a link -/

/-- Link k leaves UP for another state, with nothing unacknowledged: its flows move at once to the group's other links, or its
group ceases.  What is unacknowledged moves as in failover (R431, R433, R443). -/
def State.leaveLink (s : State) (k st : Nat) : State :=
  if s.lstate k ≠ lkUp then s.setLstate k st
  else if (s.link k).flits = 0 ∧ (s.link k).lost = none ∧ 1 < (s.group ((s.partnerChip k).getD 0)).length then
    let q := (s.link k).txq
    q.foldl (fun s p => s.sendPacket p) ((s.modLink k fun l => { l with txq := [] }).setLstate k st)
  else s.failover k st

/-- The effect of a write to YARDER_CTRL of link k, once its RW fields are stored; `old` is the register before. -/
def State.linkCtrl (s : State) (k : Nat) (old v : Word) : State :=
  let s := if v.getLsbD 4 then
      [Reg.YARDER_FEC_CE, Reg.YARDER_FEC_UE, Reg.YARDER_CRC_ERR, Reg.YARDER_REPLAY, Reg.YARDER_BADPKT].foldl
        (fun s r => s.wr (Reg.YARDER k r) 0) s
    else s
  if !v.getLsbD 0 then (if s.lstate k = lkDown then s else (s.leaveLink k lkDown).modLink k fun l => { l with retrain := false })
  else if !old.getLsbD 0 then (if s.linkMayRun k then s.startTraining k else s)
  else if v.getLsbD 3 then (if s.linkMayRun k then (s.leaveLink k lkTraining).startTraining k else s)
  else if v.getLsbD 2 ∧ s.lstate k = lkUp then
    (if (s.group ((s.partnerChip k).getD 0)).length ≤ 1 then s else s.leaveLink k lkSleep)
  else if !v.getLsbD 2 ∧ s.lstate k = lkSleep then s.startTraining k
  else s

/-! ### Windows (R434 to R438) -/

def State.winReg (s : State) (w r : Nat) : Word := s.rd (Reg.YFAB_WIN w r)
/-- BASE of window w. -/
def State.winBase (s : State) (w : Nat) : Nat := (s.winReg w 0).toNat / 64 * 64 + 2 ^ 32 * Sys2Proof.fld (s.winReg w 4) 7 0
/-- Words of window w: LEN + 1 of the register. -/
def State.winLen (s : State) (w : Nat) : Nat := Sys2Proof.fld (s.winReg w 8) 14 0 + 1
def State.winState (s : State) (w : Nat) : Nat := Sys2Proof.fld (s.winReg w 0x18) 1 0
def State.winSrc (s : State) (w c : Nat) : Bool :=
  if c < 32 then (s.winReg w 0x10).getLsbD c else if c < 64 then (s.winReg w 0x14).getLsbD (c - 32) else false

/-- Does window w hold every byte of an access. -/
def State.winHolds (s : State) (w a len : Nat) : Bool := decide (s.winBase w ≤ a ∧ a + len ≤ s.winBase w + 64 * s.winLen w)

/-- The scratchpad region of the local map. -/
def inScratchpads (a len : Nat) : Bool := decide (0x1000000000 ≤ a ∧ a + len ≤ 0x1009000000)

/-- Is a range within one tile's scratchpad. -/
def inOneScratchpad (a len : Nat) : Bool := inScratchpads a len && decide (a / 2 ^ 20 = (a + len - 1) / 2 ^ 20)

/-- The kinds of access that a window tells apart. -/
inductive WinKind where
  | read | write | fe
  deriving DecidableEq, Repr

/-- FLAGS of window w take a kind (Table 13-8). -/
def State.winAdmits (s : State) (w : Nat) (k : WinKind) : Bool :=
  let f := s.winReg w 0xC
  match k with
  | .read => f.getLsbD 1
  | .write => decide (Sys2Proof.fld f 3 2 = 0 ∨ Sys2Proof.fld f 3 2 = 2)
  | .fe => decide (Sys2Proof.fld f 3 2 = 0 ∨ Sys2Proof.fld f 3 2 = 1)

/-- The lowest-numbered OPEN or CLOSING window that admits an access (R435). -/
def State.findWindow (s : State) (src a len : Nat) (k : WinKind) : Option Nat :=
  (List.range 256).find? fun w => s.winState w != 0 && s.winHolds w a len && s.winSrc w src && s.winAdmits w k

/-- The lowest-numbered window that contains an access, whatever its state; a window never written has no extent. -/
def State.windowAt (s : State) (a len : Nat) : Option Nat := (List.range 256).find? fun w => s.winHolds w a len

/-- Set STATE of window w. -/
def State.setWinState (s : State) (w st : Nat) : State := s.setF (Reg.YFAB_WIN w 0x18) 1 0 st

/-- A write to window w is discarded (R437). -/
def State.winDiscard (s : State) (w : Nat) (v : Word) : State := s.raise 0x3202 w v.toNat

/-- Close window w: at once when no source is awaited (R438). -/
def State.winClosed (s : State) (w : Nat) (forced : List Nat) : State :=
  let s := (s.setWinState w 0).setF (Reg.YFAB_WIN w 0x18) 2 2 (b2n (decide (forced ≠ [])))
  let s := { s with winWait := s.winWait.set [] w [] }
  if forced = [] then s else s.raise 0x3201 w ((forced.map fun c => 2 ^ c).sum)

/-- EN written 0 to an OPEN window: CLOSING, and CLOSE_NOTE to every source chip that has a group or a route (R438). -/
def State.winClose (s : State) (w : Nat) : State :=
  let cs := (List.range 64).filter fun c =>
    s.winSrc w c && (s.group c != [] || s.getF (Reg.YFAB_ROUTE c) 7 0 != 0xFF)
  let s := { s.setWinState w 2 with winWait := s.winWait.set [] w cs }
  let s := cs.foldl (fun s c => s.sendCtrl c 0x33 w (s.winBase w) (s.winLen w - 1)) s
  if cs = [] then s.winClosed w [] else s

/-- DRAINED from chip c for window w. -/
def State.winDrained (s : State) (w c : Nat) : State :=
  let cs := s.winWait.get [] w
  if s.winState w = 2 ∧ cs.contains c then
    let cs := cs.filter (· != c)
    let s := { s with winWait := s.winWait.set [] w cs }
    if cs = [] then s.winClosed w [] else s
  else s

/-- CLOSE_TO of a closing window expires (R438). -/
def State.winTimeout (s : State) (w : Nat) : State :=
  if s.winState w = 2 then s.winClosed w (s.winWait.get [] w) else s

/-- A write of v to register r of window w (R434, R437, R438, Registers). -/
def State.winWrite (s : State) (w r : Nat) (v : Word) : State :=
  let s := s.voteRange (Reg.YFAB_WIN w 0) 0x20
  let st := s.winState w
  let put := fun (m : Word) => s.wrCopies (Reg.YFAB_WIN w r) (v &&& m)
  match r with
  | 0x00 => if st ≠ 0 ∧ s.winReg w 0 ≠ (v &&& 0xFFFFFFC0) then s.winDiscard w v else put 0xFFFFFFC0
  | 0x04 => if st ≠ 0 ∧ s.winReg w 4 ≠ (v &&& 0xFF) then s.winDiscard w v else put 0xFF
  | 0x08 => if st ≠ 0 ∧ s.winReg w 8 ≠ (v &&& 0x7FFF) then s.winDiscard w v else put 0x7FFF
  | 0x10 => put 0xFFFFFFFF
  | 0x14 => put 0xFFFFFFFF
  | 0x18 => if v.getLsbD 2 then s.setF (Reg.YFAB_WIN w 0x18) 2 2 0 else s
  | 0x0C =>
    let fm := Sys2Proof.fld v 3 2
    if fm = 3 ∨ (st ≠ 0 ∧ fm ≠ Sys2Proof.fld (s.winReg w 0xC) 3 2) ∨ (st = 2 ∧ v.getLsbD 0) ∨
        (st = 0 ∧ v.getLsbD 0 ∧ !inOneScratchpad (s.winBase w) (64 * s.winLen w)) then s.winDiscard w v
    else
      let s := put 0xF
      if st = 0 ∧ v.getLsbD 0 then (s.setWinState w 1).wr (Reg.YFAB_WIN w 0x1C) 0
      else if st = 1 ∧ !v.getLsbD 0 then s.winClose w
      else s
  | _ => s

/-- Count an arrival that is refused in the window that contains it, and raise event 0x3200 at most once per 1 ms (R446). -/
def State.refuseArrival (s : State) (win : Option Nat) (src status a : Nat) : State :=
  let s := match win with
    | some w => s.count (Reg.YFAB_WIN w 0x1C)
    | none => s
  let k := 0x3200 * 256
  let l := s.limits.get ({} : Limit) k
  if (match l.last with | none => true | some t => decide (t + 1000000 ≤ s.now)) then
    State.raise { s with limits := s.limits.set {} k (Limit.mk (some s.now) 0) } 0x3200 (win.getD 0xFF) (src + 2 ^ 8 * status + 2 ^ 12 * a)
  else s

end Sys2Proof.Machine
end

