-- ==== Sys2Proof/Machine/Target.lean ====
section
/-! DEFINITION. On-chip targets of an access: what a tile's scratchpad and the HBM answer to a request (R51, R196,
R327 to R331, R377), and the reads an engine makes of its own scratchpad. -/

namespace Sys2Proof.Machine
open Sys2Proof

/-- The local part of a global address, when it names this chip (R107). -/
def State.localAddr (s : State) (a : Nat) : Option Nat :=
  if a / 2 ^ 40 % 256 = 0xFF ∨ a / 2 ^ 40 % 256 = s.chipId then some (a % 2 ^ 40) else none

/-- The tile whose scratchpad holds a local address (Table 3-7). -/
def spTile (a : Nat) : Option Nat :=
  if 0x1000000000 ≤ a ∧ a < 0x1009000000 then some (a / 2 ^ 20 % 256) else none

/-- The regions of Table 3-7: tile n's scratchpad, macro m of tile n, and the others. -/
inductive Region where
  | hbm | sp (n : Nat) | dbg (n m : Nat) | regs | aliasBits | sram | rom | flash | none
  deriving DecidableEq, Repr

/-- The region that holds every byte of `len` bytes at local address `a`: one tile's scratchpad, one macro's window
(R752, step 3). -/
def regionAt (a len : Nat) : Region :=
  let within := fun (lo size : Nat) => decide (lo ≤ a ∧ a + len ≤ lo + size)
  if within 0 hbmSize then .hbm
  else if within 0x1000000000 0x9000000 then if a % 2 ^ 20 + len ≤ 2 ^ 20 then .sp (a / 2 ^ 20 % 256) else .none
  else if within 0x1400000000 0x9000000 then
    if a % 2 ^ 16 + len ≤ 2 ^ 16 then .dbg (a / 2 ^ 20 % 256) (a / 2 ^ 16 % 16) else .none
  else if within 0x1C00000000 0x800000 then .regs
  else if within 0x1D00000000 0x10000000 then .aliasBits
  else if within 0x1E00000000 0x40000 then .sram
  else if within 0x1E00100000 0x10000 then .rom
  else if within 0x1F00000000 0x20000000 then .flash
  else .none

/-- The global address of offset o of tile n's scratchpad. -/
def State.spAddr (s : State) (n o : Nat) : Nat := s.chipId * 2 ^ 40 + 0x1000000000 + n * 2 ^ 20 + o

/-- Does a request of tile n for a global address leave the tile (R395): for another tile, HBM or another chip. -/
def State.leavesTile (s : State) (n a : Nat) (op : TOp) : Bool :=
  match s.localAddr a with
  | some l => match spTile l with
    | some m => m != n
    | none => decide (l + op.span ≤ hbmSize)
  | none => true

/-! ### The way of a request (R382 to R385, R395) -/

/-- The router by which the I/O hub is reached from a western or an eastern column (Table 12-1). -/
def hubRouter (west : Bool) : Nat := if west then 137 else 138

/-- The router at which packets of an agent for a 48-bit global address enter the mesh, and the one they go to: an edge router
of Table 12-1 where agent or target lies beyond the edge. -/
def State.routers (s : State) (agent g : Nat) : Nat × Nat :=
  let home := fun (west : Bool) => if agent < 144 then agent else hubRouter west
  match s.localAddr g with
  | none => if agent < 144 then (agent, agent % 12 + if agent / 12 ≤ 5 then 0 else 132) else (hubRouter true, hubRouter true)
  | some la =>
    match regionAt la 1 with
    | .hbm =>
      let west := s.hbmStack la == 0
      (home west, (if agent < 144 then agent / 12 * 12 else 132) + if west then 0 else 11)
    | .sp n | .dbg n _ => (home (decide (n % 12 ≤ 5)), n)
    | _ => (home (decide (agent % 12 ≤ 5)), hubRouter (decide (agent % 12 ≤ 5)))

/-- A transaction takes a tag and enters the mesh (R395); an address of this chip is kept with the chip's own ID (R107). -/
def State.sendTxn (s : State) (t : Txn) : Nat × State :=
  let g := match s.localAddr t.addr with
    | some la => s.chipId * 2 ^ 40 + la
    | none => t.addr
  s.newTxn { t with addr := g, asked := t.addr, node := (s.routers t.agent g).1 }

/-- The requests of a transaction to another chip: of one 64-byte word, or a part of one, each (Table 13-4). -/
def Txn.requests (t : Txn) : List Txn :=
  match t.op with
  | .read n =>
    (List.range ((t.addr % 64 + n + 63) / 64)).map fun i =>
      let lo := if i = 0 then 0 else 64 * i - t.addr % 64
      { t with addr := t.addr + lo, op := .read (min n (64 * (i + 1) - t.addr % 64) - lo) }
  | .write segs => segs.map fun g => { t with addr := t.addr + g.1, op := .write [(0, g.2)] }
  | _ => [t]

/-- A request for another chip leaves the mesh for the Yarder. -/
def State.leaveMesh (s : State) (tag : Nat) : State :=
  match s.txn tag with
  | none => s
  | some t =>
    if (s.localAddr t.addr).isSome || t.out || t.st != .sent then s
    else
      t.requests.foldl (fun s r => s.sendRequest tag r t.poison)
        (s.setTxn tag { t with out := true, left := t.requests.length })

/-- Every request for another chip that waits in the mesh leaves it, in order of issue. -/
def State.leaveAll (s : State) : State :=
  let far := s.txnList.filter fun p => (s.localAddr p.2.addr).isNone && !p.2.out && p.2.st == .sent
  (far.mergeSort fun a b => decide (a.2.ord ≤ b.2.ord)).foldl (fun s p => s.leaveMesh p.1) s

/-! ### Writes of Landing (R461) -/

/-- Staged packets take tags of Landing's reserve, oldest first, and their writes go out; packets of frames that no longer stand
leave staging. -/
def State.stageGo (s : State) : State :=
  let go := fun (acc : List Staged × State) (p : Staged) =>
    let (done, s) := acc
    if p.tag.isSome then (done ++ [p], s)
    else if !s.stagedFor p then (done, s)
    else if s.mayIssue 148 then
      let (tag, s) := s.sendTxn { agent := 148, origin := .landing, addr := 0xFF * 2 ^ 40 + p.addr, op := .write (runsOf p.addr p.data) }
      (done ++ [{ p with tag := some tag }], s)
    else (done ++ [p], s)
  let (ps, s) := s.ingest.foldl go ([], s)
  ({ s with ingest := ps }).showStage

/-- The answer to a write of Landing: the packet leaves staging; one refused or lost stays there, to be written again (log 73). -/
def State.stageBack (s : State) (tag : Nat) (r : Resp) : State :=
  match r with
  | .ack => ({ s with ingest := s.ingest.filter fun p => p.tag != some tag }).stageGo
  | _ => { s with ingest := s.ingest.map fun (p : Staged) => if p.tag = some tag then { p with tag := none } else p }

/-- What a target answers. -/
inductive Served where
  | resp (r : Resp)
  /-- the slot is full or empty, and the request waits or is refused with FULL or EMPTY (R196) -/
  | notReady
  deriving DecidableEq, Repr

/-- The name of an operation's full/empty result. -/
def feResp (op : TOp) : FeRes → Served
  | .done bs p full => .resp (match op with | .feRead _ => .data bs p full | .fePeek => .data bs p full | _ => .ack)
  | .notReady => .notReady
  | .refused => .resp (.refused 0x07)

/-- A remote write of poisoned data: every word it touches takes the poison pattern, where SEQ owns the bank. -/
def State.remotePoison (s : State) (n : Nat) (segs : List (Nat × List Byte)) (rq : Nat) : Bool × State :=
  let s := s.ownerUse n
  match segs.find? fun g => s.ownerOf n (s.spWord n g.1) != oSeq with
  | some g => (false, s.refuseAt n g.1 rq)
  | none => (true, segs.foldl (fun s g => (s.gbFlush n (s.spWord n g.1)).poisonWord n (s.spWord n g.1)) s)

/-- A request of agent `who` served at offset o of tile n's scratchpad (R51, R327 to R330). -/
def State.serveSp (s : State) (n o : Nat) (op : TOp) (who rq : Nat) (poison : Bool := false) : Served × State :=
  if !s.reachable n then
    (.resp (.refused 0x09), s.refuseUnreachable n o who rq (0x1000000000 + n * 2 ^ 20 + o) false)
  else
    match op with
    | .read len =>
      match s.remoteRead n o len rq with
      | (some (bs, p), s) => (.resp (.data bs p false), s)
      | (none, s) => (.resp (.refused 0x07), s)
    | .write segs =>
      let segs := segs.map fun (g : Nat × List Byte) => (o + g.1, g.2)
      let (ok, s) := if poison then s.remotePoison n segs rq else s.remoteWrite n segs rq
      (.resp (if ok then .ack else .refused 0x07), s)
    | _ =>
      let w := s.spWord n o
      let (r, s) := s.feAt n w op poison
      (feResp op r, s)

/-- Write the poison pattern to HBM words. -/
def State.hbmPoison (s : State) (a : Nat) (segs : List (Nat × List Byte)) : State :=
  segs.foldl (fun s g =>
    let k := s.hbmKey ((a + g.1) / 64 * 64)
    { s with hbm := s.hbm.setMany 0 k (List.replicate 64 0), hbmMark := s.hbmMark.set {} (hbmWordKey k) { poison := true } }) s

/-- A request served by the HBM at local address a: it carries no tags, and a controller that does not take requests
refuses it (R377). -/
def State.serveHbm (s : State) (a : Nat) (op : TOp) (poison : Bool := false) : Resp × State :=
  match op with
  | .read len =>
    match s.hbmRead a len with
    | (some (bs, p), s) => (.data bs p false, s)
    | (none, s) => (.refused 0x05, s)
  | .write segs =>
    if poison && (segs.all fun g => s.hbmReady (s.hbmStack (a + g.1))) then (.ack, s.hbmPoison a segs)
    else
      let (ok, s) := s.hbmWrite a segs
      (if ok then .ack else .refused 0x05, s)
  | _ => (.refused 0x05, s)

/-! ### Reads of an engine in its own scratchpad -/

/-- What an engine's read gives: the bytes and the offset of the first poisoned word, or the offset refused; or it is held by a
handover to its owner. -/
inductive EngRead where
  | got (bytes : List Byte) (poison : Option Nat)
  | refused (off : Nat)
  | waits
  deriving DecidableEq, Repr

/-- Read `len` bytes at offset o of tile n through the port of the engine whose banks have owner `own` (R327, R331). -/
def State.engineRead (s : State) (n o len own rq : Nat) : EngRead × State :=
  let s := s.ownerUse n
  let ofs := (List.range ((o % 64 + len + 63) / 64)).map fun i => o / 64 * 64 + 64 * i
  if ofs.any fun x => s.newHolds n (s.spWord n x) own then (.waits, s)
  else match ofs.find? fun x => s.ownerOf n (s.spWord n x) != own || decide (2 ^ 20 ≤ x) with
  | some x => (.refused (max o x), s.refuseAt n (max o x) rq)
  | none =>
    let (bs, p, s) := ofs.foldl (fun (acc : List Byte × Option Nat × State) x =>
      let (bs, p, s) := acc
      let (b, q, s) := s.readWord n (s.spWord n x) rq
      (bs ++ b, (if p.isNone && q then some x else p), s)) ([], none, s)
    (.got ((bs.drop (o % 64)).take len) p, s)

end Sys2Proof.Machine
end

