-- ==== Sys2Proof/Machine/Bucker.lean ====
section
/-! DEFINITION. The Bucker (chapter 09): accumulation groups, de-quantisation, pairwise trees, running sums, ACC.OPEN,
ACC.FLUSH, and the pieces in which engines write their output. -/

namespace Sys2Proof.Machine
open Sys2Proof

/-- Change the operation with an issue number. -/
def Tile.modOp (t : Tile) (seq : Nat) (f : FOp → FOp) : Tile :=
  let g := fun (o : FOp) => if o.seq = seq then f o else o
  { t with feeder := t.feeder.map g, loads := t.loads.map g }

/-- Remove it. -/
def Tile.dropOp (t : Tile) (seq : Nat) : Tile :=
  { t with feeder := t.feeder.filter (fun o => o.seq != seq), loads := t.loads.filter (fun o => o.seq != seq) }

/-- Is an MRUN of group g issued before `seq` unfinished (R207). -/
def Tile.mrunBefore (t : Tile) (g seq : Nat) : Bool :=
  (t.feeder ++ t.loads).any fun o => match o.kind with
    | .mrun d => leAt d 12 1 == g && decide (o.seq < seq)
    | _ => false

/-- The group a Bucker operation names. -/
def BOp.group (o : BOp) : Option Nat :=
  match o.kind with
  | .open d => some (leAt d 1 1)
  | .close d _ => some (leAt d 1 1)
  | .flush g => some g
  | .stat _ => none

/-- Is a Bucker operation of group g issued before `seq` unfinished. -/
def Tile.bopBefore (t : Tile) (g seq : Nat) : Bool := t.bucker.any fun o => o.group == some g && decide (o.seq < seq)

/-! ### The LFSR (R293, R295) -/

/-- One step of the LFSR: its new state, which is also the number drawn. -/
def lfsrStep (x : BitVec 24) : BitVec 24 :=
  let b := x.getLsbD 23 ^^ x.getLsbD 22 ^^ x.getLsbD 21 ^^ x.getLsbD 16
  (x <<< 1) ||| BitVec.ofNat 24 (b2n b)

/-- Does a handover in progress hold the accesses of an engine's operation of issue number `seq` back: it hands banks from
or to owner `own`, and the operation was dispatched after it started (Table 10-2). -/
def Tile.heldBack (t : Tile) (own seq : Nat) : Bool :=
  match t.handovers with
  | h :: _ => h.started && (h.olds.contains own || fld h.word 18 16 == own) && decide (h.seq ≤ seq)
  | [] => false

/-- The LFSR loaded from a seed; a seed of 0 loads 1. -/
def lfsrSeed (w : Word) : BitVec 24 := if fld w 23 0 = 0 then 1 else w.setWidth 24

/-- A pending seed applies at the start of a Bucker operation (R295). -/
def State.applySeed (s : State) (n : Nat) : State :=
  let o := Reg.TILE n Reg.TILE_BUCK_SEED
  if s.bit (Reg.TILE n Reg.PEND) 2 then
    ((s.apply o).clearPend (Reg.TILE n 0) 4).modTile n fun t => { t with lfsr := lfsrSeed (s.rd o) }
  else s

/-! ### Running sums (R291, R292) -/

/-- The FP24 running sum of s and t, as an FP32 pattern, with random number u (R292). -/
def fp24Add (s t : Word) (u : BitVec 24) : Word :=
  match fpSum (fpDec 23 s.toNat) (fpDec 23 t.toNat) with
  | .nan => 0x7FC00000
  | .inf neg => BitVec.ofNat 32 (fpInf 23 neg)
  | .fin neg m e =>
    if m = 0 then BitVec.ofNat 32 (fpZero 23 neg)
    else
      let ex := (Nat.log2 m : Int) + e
      if ex < -126 then BitVec.ofNat 32 (fpZero 23 neg)
      else
        let sh := ex - 15 - e
        let k := sh.toNat
        let mant := if sh ≤ 0 then m <<< (-sh).toNat else m >>> k
        let f24 := if sh ≤ 0 then 0 else ((m % 2 ^ k) <<< 24) >>> k
        let mant := if f24 ≠ 0 ∧ u.toNat ≤ f24 then mant + 1 else mant
        let (mant, ex) := if mant = 2 ^ 16 then (2 ^ 15, ex + 1) else (mant, ex)
        if 127 < ex then BitVec.ofNat 32 (fpInf 23 neg)
        else BitVec.ofNat 32 (b2n neg * 2 ^ 31 + (ex + 127).toNat * 2 ^ 23 + (mant - 2 ^ 15) * 2 ^ 8)

/-- Add `t` to the running sum of an element of a group (R291, R292). -/
def Tile.addRunning (x : Tile) (g : Grp) (w : Nat) (t : Word) : Tile :=
  let old := x.words.get 0 w
  if g.fp24 then
    let u := lfsrStep x.lfsr
    { x with lfsr := u, words := x.words.set 0 w (fp24Add old t u) }
  else { x with words := x.words.set 0 w (f32Add old t) }

/-- First word of element e (R284). -/
def Grp.word (g : Grp) (e : Nat) : Nat := g.wbase + e * (g.depth + 1)

/-- The tree levels l, l + 1, … of an element take a value v (R289). -/
def Tile.treeIn (g : Grp) (w r : Nat) : Nat → Nat → Word → Tile → Tile
  | 0, _, v, x => x.addRunning g w v
  | k + 1, l, v, x =>
    if r.testBit l then treeIn g w r k (l + 1) (f32Add (x.words.get 0 (w + 1 + l)) v) x
    else { x with words := x.words.set 0 (w + 1 + l) v }

/-- Element e of group i takes the next pass with value v (R288, R289). -/
def Tile.applyPass (x : Tile) (i e : Nat) (v : Word) : Tile :=
  let g := x.groups.get {} i
  let k := i * 16384 + e
  let j := x.passIdx.get 0 k
  let x := Tile.treeIn g (g.word e) j g.depth 0 v x
  { x with passIdx := x.passIdx.set 0 k ((j + 1) % 2 ^ g.depth) }

/-- A poisoned pass: the element is marked, and the pass index advances (R613). -/
def Tile.poisonPass (x : Tile) (i e a : Nat) : Tile :=
  let g := x.groups.get {} i
  let k := i * 16384 + e
  { x with epoison := x.epoison.set none k ((x.epoison.get none k).or (some a)), passIdx := x.passIdx.set 0 k ((x.passIdx.get 0 k + 1) % 2 ^ g.depth) }

/-- Element e of group i completes its unfinished block (R290). -/
def Tile.completeBlock (x : Tile) (i e : Nat) : Tile :=
  let g := x.groups.get {} i
  let k := i * 16384 + e
  let r := x.passIdx.get 0 k
  let w := g.word e
  if r = 0 then x
  else
    let t := (List.range g.depth).foldl (fun (t : Option Word) l =>
      if r.testBit l then
        let sl := x.words.get 0 (w + 1 + l)
        some (match t with | none => sl | some v => f32Add sl v)
      else t) none
    let x := { x with passIdx := x.passIdx.set 0 k 0 }
    match t with
    | some v => x.addRunning g w v
    | none => x

/-- Group i is freed. -/
def Tile.freeGroup (x : Tile) (i : Nat) : Tile :=
  { x with groups := x.groups.set {} i {}, passIdx := x.passIdx.clear (i * 16384) 16384,
           epoison := x.epoison.clear (i * 16384) 16384 }

/-! ### From group sums to pass values (R285, R286) -/

/-- The pass value of a channel from its group sums, weight scales and activation scales (BF16 patterns). -/
def passValue (sums : List Int) (ws as' : List (BitVec 16)) : Word :=
  let vs := sums.mapIdx fun g v =>
    let p := f32Mul (f32OfBf16 (ws.getD g 0).toNat) (f32OfBf16 (as'.getD g 0x3F80).toNat)
    BitVec.ofNat 32 (fpEnc 23 (fpProd (.fin (decide (v < 0)) v.natAbs 0) (fpDec 23 p.toNat)))
  match vs with
  | [a, b] => f32Add a b
  | [a, b, c, d] => f32Add (f32Add a b) (f32Add c d)
  | [a] => a
  | _ => 0

/-- The scales of channel c of a row-group record with group code g. -/
def RgRec.chanScales (r : RgRec) (c : Nat) : List (BitVec 16) :=
  let k := 128 / groupSize r.group
  ((r.scales.getD []).drop (c * k)).take k

/-! ### Applying finished passes in the logical order (R288) -/

/-- Apply the passes of an MRUN from logical position `next` on, up to one that is not finished: `fuel` positions at
most. -/
def Tile.applyFrom (d : List Byte) (seq : Nat) : Nat → Tile → Tile
  | 0, x => x
  | fuel + 1, x =>
    match (x.loads ++ x.feeder).find? fun o => o.seq == seq with
    | none => x
    | some op =>
      let ms := mrunMacros d
      let j := op.next
      let nrg := leAt d 9 1
      let rank := j % ms.length
      let k := j / ms.length % nrg
      let v := j / ms.length / nrg
      if leAt d 10 2 ≤ v then x
      else
        match op.done.find? fun p => p.vec == v && p.k == k && p.rank == rank with
        | some p =>
          let base := leAt d 40 4 + v * leAt d 44 2 + rank * leAt d 46 2
          let i := leAt d 12 1
          let x := (List.range p.vals.length).foldl (fun (x : Tile) c =>
            match p.poison with
            | some a => x.poisonPass i (base + c) a
            | none => x.applyPass i (base + c) (p.vals.getD c 0)) x
          applyFrom d seq fuel (x.modOp seq fun (o : FOp) => { o with done := o.done.erase p, next := j + 1 })
        | none =>
          if (op.prog.get {} (ms.getD rank 0)).abandoned then
            applyFrom d seq fuel (x.modOp seq fun (o : FOp) => { o with next := j + 1 })
          else x

/-- Is every pass of an MRUN applied or passed over. -/
def FOp.finished (o : FOp) : Bool :=
  match o.kind with
  | .mrun d => decide (mrunPasses d * (mrunMacros d).length ≤ o.next)
  | _ => false

/-- Is an MRUN of an FP24 group issued before `seq` unfinished (R294). -/
def Tile.fp24Mrun (t : Tile) (seq : Nat) : Bool :=
  (t.feeder ++ t.loads).any fun o => match o.kind with
    | .mrun d => (t.groups.get {} (leAt d 12 1)).fp24 && decide (o.seq < seq)
    | _ => false

/-- Is an ACC.CLOSE of an FP24 group issued before `seq` not started: its blocks are not completed (R294). -/
def Tile.fp24Close (t : Tile) (seq : Nat) : Bool :=
  t.bucker.any fun b => match b.kind with
    | .close d _ => (t.groups.get {} (leAt d 1 1)).fp24 && !b.started && decide (b.seq < seq)
    | _ => false

/-- An earlier unfinished operation must be applied first: an MRUN of the same group, or, where this one's group is FP24,
an MRUN or an ACC.CLOSE of an FP24 group (R288, R294). -/
def Tile.mustWait (x : Tile) (o : FOp) : Bool :=
  match o.kind with
  | .mrun d =>
    let g := leAt d 12 1
    ((x.groups.get {} g).fp24 && x.fp24Close o.seq) ||
      x.active.any fun p => decide (p.seq < o.seq) && match p.kind with
        | .mrun e => leAt e 12 1 == g || ((x.groups.get {} g).fp24 && (x.groups.get {} (leAt e 12 1)).fp24)
        | _ => false
  | _ => false

/-- Apply what can be applied, MRUN by MRUN in issue order, and drop the finished ones; a pass applies within 32 held
passes per macro (R310), so `fuel` covers abandoned passes too. -/
def Tile.applyAll (x : Tile) : Tile :=
  let ops := (x.active.filter fun o => match o.kind with | .mrun _ => true | _ => false).mergeSort fun a b => decide (a.seq ≤ b.seq)
  ops.foldl (fun (x : Tile) o =>
    match o.kind with
    | .mrun d =>
      if x.mustWait o then x
      else
        let x := Tile.applyFrom d o.seq (mrunPasses d * (mrunMacros d).length + 1) x
        match x.active.find? fun p => p.seq == o.seq with
        | some p => if p.finished then x.dropOp o.seq else x
        | none => x
    | _ => x) x

/-! ### ACC.OPEN and ACC.FLUSH (R189, R191, R312) -/

/-- The word range of a group. -/
def Grp.range (g : Grp) : Nat × Nat := (g.wbase, g.nelem * (g.depth + 1))

/-- The Bucker performs an ACC.OPEN. -/
def State.accOpen (s : State) (n : Fin 144) (o : BOp) (d : List Byte) : State :=
  let s := s.applySeed n
  let t := s.tile n
  let i := leAt d 1 1
  let g : Grp := ⟨true, leAt d 2 1 % 8, (leAt d 2 1).testBit 3, leAt d 4 2, leAt d 6 2⟩
  let opens := t.groups.filter fun p => p.2.isOpen
  if (t.groups.get {} i).isOpen then s.defer (.tile n) ⟨0x16, 2, i, o.addr⟩
  else if 64 ≤ opens.length ∨ opens.any (fun p => decide (p.2.range.1 < g.range.1 + g.range.2 ∧ g.range.1 < p.2.range.1 + p.2.range.2)) then
    s.defer (.tile n) ⟨0x15, 2, i, o.addr⟩
  else
    s.modTile n fun t =>
      { t.freeGroup i with groups := t.groups.set {} i g, words := t.words.clear g.range.1 g.range.2 }

/-- The Bucker performs an ACC.FLUSH; of a group that is not open it is a use (0x16). -/
def State.accFlush (s : State) (n : Fin 144) (o : BOp) (i : Nat) : State :=
  let s := s.applySeed n
  if ((s.tile n).groups.get {} i).isOpen then s.modTile n fun t => t.freeGroup i
  else s.defer (.tile n) ⟨0x16, 2, i, o.addr⟩

/-- The Bucker's queue goes on: ACC.OPEN and ACC.FLUSH at the head are performed once earlier operations of their group
are done (R207); ACC.CLOSE and ACC.STAT end by their own commands. -/
def State.buckerRun (n : Fin 144) : Nat → State → State
  | 0, s => s
  | fuel + 1, s =>
    match (s.tile n).bucker with
    | [] => s
    | o :: rest =>
      match o.kind with
      | .open d =>
        if (s.tile n).mrunBefore (leAt d 1 1) o.seq then s
        else buckerRun n fuel ((s.modTile n fun t => { t with bucker := rest }).accOpen n o d)
      | .flush g =>
        if (s.tile n).mrunBefore g o.seq then s
        else buckerRun n fuel ((s.modTile n fun t => { t with bucker := rest }).accFlush n o g)
      | _ => s

/-! ### Output (R209, R299, R300, R314, R330) -/

/-- What became of a piece. -/
inductive OutRes where
  | done
  /-- the slot is full -/
  | wait
  /-- the tile's quota is full -/
  | quota
  | refused (cause : Nat)
  /-- it has left the tile under a tag -/
  | sent (tag : Nat)
  deriving DecidableEq, Repr

/-- The operation a piece asks for. -/
def Piece.op (p : Piece) : TOp :=
  match p.how with
  | .plain => .write [(0, p.bytes)]
  | .fe => .feWrite p.bytes
  | .tag => .feSet

/-- Write a piece through the engine's own port to a bank of the own scratchpad, which BUCK must own (R299, R327). -/
def State.ownPiece (s : State) (n rq : Nat) (p : Piece) : OutRes × State :=
  let s := s.ownerUse n
  let w := s.spWord n (p.addr % 2 ^ 20)
  if s.newHolds n w oBuck then (.wait, s)
  else if s.ownerOf n w != oBuck then (.refused 0x07, s.refuseAt n (p.addr % 2 ^ 20) rq)
  else match p.how with
    | .plain =>
      if p.poison then (.done, s.poisonWord n w)
      else
        let lo := p.addr % 64
        (.done, s.mergeWord n w rq (enables lo p.bytes.length) (placeAt lo p.bytes))
    | _ =>
      match s.feAt n w p.op p.poison with
      | (.done .., s) => (.done, s)
      | (.notReady, s) => (.wait, s)
      | (.refused, s) => (.refused 0x07, s)

/-- Can a write of an engine be sent to an address at all: a scratchpad, or for plain data HBM, of this chip; another chip
answers for itself. -/
def State.outReaches (s : State) (p : Piece) : Bool :=
  match s.localAddr p.addr with
  | none => true
  | some la => match regionAt la p.op.span with
    | .sp _ => true
    | .hbm => p.how == .plain
    | _ => false

/-- Write a piece of engine `kind` (0 Bucker, 1 Chipper) of tile n: through the engine's own port where `own` and the own
scratchpad say so, and else as a remote write that holds a tag (R299).  An address that no engine reaches is refused with
0x05. -/
def State.outPiece (s : State) (n kind : Nat) (own : Bool) (p : Piece) : OutRes × State :=
  if own && (s.localAddr p.addr).bind spTile == some n then s.ownPiece n (if kind = 0 then rqBuck else rqChip) p
  else if !s.outReaches p then (.refused 0x05, s)
  else if !s.mayIssue n then (.quota, s)
  else
    let (tag, s) := s.sendTxn { agent := n, origin := .engine kind, addr := p.addr, op := p.op, poison := p.poison }
    (.sent tag, s)

/-- Write pieces from the first one on: those left, and why the run stopped short. -/
def State.outPieces (n kind : Nat) (own : Bool) : List Piece → State → List Piece × Option OutRes × State
  | [], s => ([], none, s)
  | p :: ps, s =>
    match s.outPiece n kind own p with
    | (.done, s) => outPieces n kind own ps s
    | (.quota, s) => ({ p with quota := true } :: ps, some .quota, if p.quota then s else s.quotaStall n)
    | (r, s) => (p :: ps, some r, s)

/-- The pieces of bytes at an address; `mark` tells which bytes belong to a poisoned element, `nf` at which bytes a non-finite
value begins. -/
def piecesOf (addr : Nat) (bs : List Byte) (mark : Nat → Bool) (how : How) (nf : Nat → Bool := fun _ => false) :
    List Piece :=
  (runsOf addr bs).map fun (g : Nat × List Byte) =>
    let is := (List.range g.2.length).map fun i => g.1 + i
    { addr := addr + g.1, bytes := g.2, poison := is.any mark, how := how, nf := is.countP nf }

/-- How SETFULL writes the words of a run (R209). -/
def setfullHow (sf : Nat) : How := if sf = 1 then .fe else .plain

/-- The last word's tag under SETFULL 2, for output that ends before address `a` (R209). -/
def lastTag (sf a : Nat) : List Piece := if sf = 2 then [{ addr := (a - 1) / 64 * 64, bytes := [], poison := false, how := .tag }] else []

/-- Change the operation at the head of the Bucker's queue. -/
def State.modBop (s : State) (n : Nat) (f : BOp → BOp) : State :=
  s.modTile n fun t => match t.bucker with | o :: r => { t with bucker := f o :: r } | [] => t

/-- The operation at the head of the Bucker's queue is over, and the next ones go on. -/
def State.popBop (s : State) (n : Fin 144) : State :=
  State.buckerRun n 5 (s.modTile n fun t => { t with bucker := t.bucker.drop 1 })

/-! ### ACC.CLOSE (R190, R296 to R302, R314, R315, R613) -/

/-- Is an FP32 pattern not finite. -/
def nonFinite (w : Word) : Bool := fld w 30 23 == 255

/-- What the reads of a row of an engine's work give: its contents, the offset refused, or a wait. -/
inductive RowRes (α : Type) where
  | ok (a : α)
  | refused (off : Nat)
  | waits

/-- Row r of a close: the finished values, each with the poisoned word that marks it. -/
def State.closeRow (s : State) (n : Nat) (d : List Byte) (r : Nat) : RowRes (List (Word × Option Nat)) × State :=
  let t := s.tile n
  let i := leAt d 1 1
  let g := t.groups.get {} i
  let len := leAt d 4 2
  let o := leAt d 2 1
  let fuse := o % 4
  let bf := if o.testBit 2 then 4 else 2
  let vals := (List.range len).map fun c =>
    (t.words.get 0 (g.word (r * len + c)), t.epoison.get none (i * 16384 + r * len + c))
  if fuse = 0 then (.ok vals, s)
  else
    let base := leAt d 20 4 % 2 ^ 20 + r * leAt d 24 4
    match s.engineRead n base (len * bf) oBuck rqBuck with
    | (.refused x, s) => (.refused x, s)
    | (.waits, s) => (.waits, s)
    | (.got bs p, s) =>
      let vals := vals.mapIdx fun c v =>
        let f := if bf = 4 then BitVec.ofNat 32 (leAt bs (4 * c) 4) else f32OfBf16 (leAt bs (2 * c) 2)
        ((if fuse = 1 then f32Add v.1 f else f32Mul v.1 f), v.2.or (p.map (s.spAddr n)))
      (.ok vals, s)

/-- The result bytes of a close's value. -/
def closeBytes (o : Nat) (w : Word) : List Byte :=
  if o.testBit 3 then leBytes 4 w.toNat else leBytes 2 (fpCvt 23 7 w.toNat)

/-- The value a close writes or hands over, as FP32 (R296): rounded to BF16 where it writes BF16. -/
def closeValue (dest o : Nat) (w : Word) : Word :=
  if dest = 2 ∨ o.testBit 3 then w else f32OfBf16 (fpCvt 23 7 w.toNat)

/-- Does a close's value count as non-finite: one that no poison replaces (R302). -/
def closeNf (dest o : Nat) (v : Word × Option Nat) : Bool := nonFinite (closeValue dest o v.1) && v.2.isNone

/-- The events of a close at its end, however it ends: 0x1011 for non-finite values written or handed over (R302), and 0x1012
for poison (R315). -/
def State.closeEvents (s : State) (n : Fin 144) (o : BOp) (group : Nat) : State :=
  let s := if o.nonfinite = 0 then s
    else s.raiseLim 0x1011 n fun _ => group + 2 ^ 16 * min o.nonfinite 65535 + 2 ^ 32 * (o.addr.toNat % 2 ^ 20)
  match o.poisonAt with
  | some a => s.raise 0x1012 n (a + 2 ^ 48 * 0x04)
  | none => s

/-- The close at the head fails with a deferred cause; its group stays open and both operations of a DEST 2 close are
dropped. -/
def State.closeFail (s : State) (n : Fin 144) (group cause : Nat) (unit tval : Nat) : State :=
  match (s.tile n).bucker.head? with
  | none => s
  | some o =>
    let s := s.closeEvents n o group
    let s := s.modTile n fun t => { t with chipper := t.chipper.filter fun (c : COp) => !(c.fromClose && c.seq == o.seq) }
    (s.popBop n).defer (.tile n) ⟨cause, 2, unit, BitVec.ofNat 64 tval⟩

/-- A close has written or handed over everything: its events, and the group is freed. -/
def State.closeDone (s : State) (n : Fin 144) (o : BOp) (d : List Byte) : State :=
  let i := leAt d 1 1
  let fl := leAt d 2 1
  let chip := decide (fl / 16 % 4 = 2)
  let s := s.closeEvents n (if chip then { o with nonfinite := o.values.countP (closeNf 2 fl) } else o) i
  let s := if chip then
      s.modTile n fun t => { t with chipper := t.chipper.map fun (c : COp) =>
        if c.fromClose && c.seq == o.seq then { c with values := some o.values } else c }
    else s
  (s.modTile n fun t => t.freeGroup i).popBop n

/-- The pieces of the Bucker's operation that are left once those before them are written. -/
def BOp.wrote (o : BOp) (left : List Piece) : BOp :=
  { o with out := left, nonfinite := o.nonfinite + ((o.out.map (·.nf)).sum - (left.map (·.nf)).sum) }

/-- The close at the head writes its rows, one after the other, as far as it can. -/
def State.closeRun (n : Fin 144) (d : List Byte) : Nat → State → State
  | 0, s => s
  | fuel + 1, s =>
    match (s.tile n).bucker.head? with
    | none => s
    | some o =>
      let fl := leAt d 2 1
      let dest := fl / 16 % 4
      let (left, stop, s) := State.outPieces n 0 (dest == 0) o.out s
      let s := s.modBop n fun (o : BOp) => o.wrote left
      match stop with
      | some (.refused c) => s.closeFail n (leAt d 1 1) c 0 (match left.head? with | some p => p.addr | none => 0)
      | some (.sent tag) => s.modBop n fun (o : BOp) => { o with tag := some tag }
      | some _ => s
      | none =>
        let o := o.wrote left
        let g := (s.tile n).groups.get {} (leAt d 1 1)
        let len := leAt d 4 2
        if g.nelem ≤ o.row * len then s.closeDone n o d
        else
          let r := o.row
          match s.closeRow n d r with
          | (.refused x, s) => s.closeFail n (leAt d 1 1) 0x07 0 (s.spAddr n x)
          | (.waits, s) => s
          | (.ok vals, s) =>
            let a := leAt d 8 8 + r * leAt d 16 4
            let b := if fl.testBit 3 then 4 else 2
            let sf := leAt d 3 1 % 4
            let bs := vals.flatMap fun v => closeBytes fl v.1
            let ps := if dest = 2 then []
              else piecesOf a bs (fun i => (vals.getD (i / b) (0, none)).2.isSome) (setfullHow sf)
                  (fun i => i % b == 0 && closeNf dest fl (vals.getD (i / b) (0, none))) ++
                (if g.nelem ≤ (r + 1) * len then lastTag sf (a + bs.length) else [])
            closeRun n d fuel (s.modBop n fun (o : BOp) =>
              { o with row := r + 1, out := ps, values := (if dest = 2 then o.values ++ vals else []),
                       poisonAt := o.poisonAt.or (vals.findSome? (·.2)) })

/-- The Bucker works on the ACC.CLOSE at its head (R190): once earlier operations of its group are done, for an FP24 group
the earlier MRUNs of FP24 groups too (R294), and no write is outstanding, it completes every block, then writes row by
row. -/
def State.closeStep (s : State) (n : Fin 144) : State :=
  match (s.tile n).bucker.head? with
  | some o =>
    match o.kind with
    | .close d _ =>
      let i := leAt d 1 1
      let g := (s.tile n).groups.get {} i
      if o.tag.isSome || (s.tile n).mrunBefore i o.seq || (g.fp24 && (s.tile n).fp24Mrun o.seq) ||
          (s.tile n).heldBack oBuck o.seq then s
      else
        let s := if o.started then s else s.applySeed n
        if !g.isOpen then s.closeFail n i 0x16 i o.addr.toNat
        else
          let s := if o.started then s
            else s.modTile n fun t => (List.range g.nelem).foldl (fun (t : Tile) e => t.completeBlock i e) t
          let s := s.modBop n fun (o : BOp) => { o with started := true }
          State.closeRun n d (g.nelem + 2) s
    | _ => s
  | none => s

/-! ### ACC.STAT (R303 to R307) -/

/-- A node of the statistics tree: count, mean and M2. -/
structure StatNode where
  n : Nat
  mean : Word
  m2 : Word
  deriving DecidableEq, Repr

/-- Merge two nodes, the lower-numbered first (R304). -/
def StatNode.merge (a b : StatNode) : StatNode :=
  let n := a.n + b.n
  let dl := f32Sub b.mean a.mean
  let f := f32Div (f32OfInt b.n) (f32OfInt n)
  let m := f32Add a.mean (f32Mul dl f)
  let q := f32Mul (f32Mul (f32Mul dl dl) (f32OfInt a.n)) f
  ⟨n, m, f32Add (f32Add a.m2 b.m2) q⟩

/-- One level of a balanced tree: nodes 2j and 2j + 1 merge, an unpaired last one passes up. -/
def pairLevel {α : Type} (f : α → α → α) : List α → List α
  | a :: b :: r => f a b :: pairLevel f r
  | l => l

/-- A balanced tree over a list; `fuel` levels. -/
def pairTree {α : Type} (f : α → α → α) : Nat → List α → Option α
  | 0, l => l.head?
  | fuel + 1, l => match l with
    | [a] => some a
    | _ => pairTree f fuel (pairLevel f l)

/-- The statistics of a list of values; `sumsq` takes the sum of squares in place of M2 (R305). -/
def statOf (xs : List Word) (sumsq : Bool) : StatNode :=
  let t := (pairTree StatNode.merge 17 (xs.map fun x => (⟨1, x, 0⟩ : StatNode))).getD ⟨0, 0, 0⟩
  if sumsq then { t with m2 := (pairTree f32Add 17 (xs.map fun x => f32Mul x x)).getD 0 } else t

/-- The ACC.STAT at the head ends, however it does: event 0x1012 for poison (R315). -/
def State.statEnd (s : State) (n : Fin 144) : State :=
  match (s.tile n).bucker.head?.bind (·.poisonAt) with
  | some a => (s.raise 0x1012 n (a + 2 ^ 48 * 0x05)).popBop n
  | none => s.popBop n

/-- The ACC.STAT at the head works on its statistics groups, `fuel` of them at most. -/
def State.statRun (n : Fin 144) (d : List Byte) : Nat → State → State
  | 0, s => s
  | fuel + 1, s =>
    match (s.tile n).bucker.head? with
    | none => s
    | some o =>
      if leAt d 4 4 ≤ o.row then s.statEnd n
      else
        let fl := leAt d 1 1
        let b := if fl.testBit 0 then 4 else 2
        let size := leAt d 2 2
        let q := o.row
        let base := leAt d 8 4 % 2 ^ 20 + q * size * b
        let out := leAt d 12 4 % 2 ^ 20 + 16 * q
        let bad := fun (s : State) (x : Nat) =>
          (s.statEnd n).defer (.tile n) ⟨0x07, 2, 0, BitVec.ofNat 64 (s.spAddr n x)⟩
        match s.engineRead n base (size * b) oBuck rqBuck with
        | (.refused x, s) => bad s x
        | (.waits, s) => s
        | (.got bs p, s) =>
          match (if fl.testBit 1 then s.engineRead n out 16 oBuck rqBuck else (.got (List.replicate 16 0) none, s)) with
          | (.refused x, s) => bad s x
          | (.waits, s) => s
          | (.got old p', s) =>
            let xs := (List.range size).map fun i =>
              if b = 4 then BitVec.ofNat 32 (leAt bs (4 * i) 4) else f32OfBf16 (leAt bs (2 * i) 2)
            let new := statOf xs (fl.testBit 2)
            let a : StatNode := ⟨leAt old 0 4, BitVec.ofNat 32 (leAt old 4 4), BitVec.ofNat 32 (leAt old 8 4)⟩
            let r := if !fl.testBit 1 || a.n = 0 then new
              else
                let m := StatNode.merge a new
                if fl.testBit 2 then { m with m2 := f32Add a.m2 new.m2 } else m
            let bytes := leBytes 4 r.n ++ leBytes 4 r.mean.toNat ++ leBytes 4 r.m2.toNat ++ leBytes 4 0
            match s.ownPiece n rqBuck { addr := out, bytes := bytes, poison := p.isSome || p'.isSome, how := .plain } with
            | (.done, s) =>
              let at' := (if p.isSome then p else p').map (s.spAddr n)
              statRun n d fuel (s.modBop n fun (o : BOp) =>
                { o with row := q + 1, started := true, poisonAt := o.poisonAt.or at' })
            | (.refused _, s) => bad s out
            | (_, s) => s

/-- The Bucker performs the ACC.STAT at its head. -/
def State.statStep (s : State) (n : Fin 144) : State :=
  match (s.tile n).bucker.head? with
  | some o =>
    match o.kind with
    | .stat d =>
      if (s.tile n).heldBack oBuck o.seq then s
      else State.statRun n d (leAt d 4 4 + 2) (if o.started then s else s.applySeed n)
    | _ => s
  | none => s

end Sys2Proof.Machine
end

