-- ==== Sys2Proof/Machine/Chipper.lean ====
section
/-! DEFINITION. The Chipper (chapter 08): smoothing, rotation, group scales, encoding, and the QOUT operation. -/

namespace Sys2Proof.Machine
open Sys2Proof

/-- c_n of Table 8-3. -/
def hadamardNorm (n : Nat) : Word := if n = 32 then 0x3E3504F3 else if n = 64 then 0x3E000000 else 0x3DB504F3

/-- One stage of the rotation at distance h (R269). -/
def hadamardStage (h : Nat) (y : List Word) : List Word :=
  y.mapIdx fun i v =>
    if i / h % 2 = 0 then f32Add v (y.getD (i + h) 0) else f32Sub (y.getD (i - h) 0) v

/-- The rotation of one block (R269). -/
def hadamardBlock (n : Nat) (y : List Word) : List Word :=
  let y := (List.range (Nat.log2 n)).foldl (fun y k => hadamardStage (2 ^ k) y) y
  y.map fun v => f32Mul v (hadamardNorm n)

/-- A list in chunks of n. -/
def chunks {α : Type} (n : Nat) : Nat → List α → List (List α)
  | 0, _ => []
  | k + 1, l => l.take n :: chunks n k (l.drop n)

/-- A codebook entry as FP32. -/
def entryF (e : BitVec 16) : Word := f32OfInt e.toInt

/-- What a QOUT encodes into: an integer width and sign, or a codebook slot. -/
inductive QFmt where
  | int (w : Nat) (signed : Bool)
  | book (e : List (BitVec 16)) (qmax : Nat)
  deriving DecidableEq, Repr

/-- Qmax of a format (R270). -/
def QFmt.qmax : QFmt → Nat
  | .int w true => 2 ^ (w - 1) - 1
  | .int w false => 2 ^ w - 1
  | .book _ q => q

/-- The group statistic m (R270): a NaN takes no part. -/
def groupMax (f : QFmt) (ys : List Word) : Word :=
  ys.foldl (fun m y =>
    if fpIsNan 23 y.toNat then m
    else
      let v := match f with
        | .int _ false => y
        | _ => y &&& 0x7FFFFFFF
      if fpLt (fpDec 23 m.toNat) (fpDec 23 v.toNat) then v else m) 0

/-- The smallest BF16 pattern not less than a non-negative FP32 value; past the largest finite one, that one and `true`
(R271). -/
def bf16Up (q : Word) : BitVec 16 × Bool :=
  let hi := q.toNat / 65536
  let up := if q.toNat % 65536 = 0 then hi else hi + 1
  if 0x7F7F < up then (0x7F7F, true) else (BitVec.ofNat 16 up, false)

/-- The group scale, and whether it was limited (R271). -/
def groupScale (f : QFmt) (m : Word) : BitVec 16 × Bool :=
  if fpLt (fpDec 23 0) (fpDec 23 m.toNat) && f.qmax != 0 then bf16Up (f32Div m (f32OfInt f.qmax)) else (0, false)

/-- The index of the entry nearest to t, the lowest on a tie (R273). -/
def nearest (e : List (BitVec 16)) (t : Word) : Nat :=
  let d := e.map fun x => fpDec 23 ((f32Sub t (entryF x)) &&& 0x7FFFFFFF).toNat
  (List.range d.length).foldl (fun b k => if fpLt (d.getD k .nan) (d.getD b .nan) then k else b) 0

/-- The index of the largest or the smallest entry, the lowest on a tie. -/
def extremeEntry (e : List (BitVec 16)) (largest : Bool) : Nat :=
  (List.range e.length).foldl (fun b k =>
    let x := (e.getD k 0).toInt
    let y := (e.getD b 0).toInt
    if (if largest then y < x else x < y) then k else b) 0

/-- Bounds of an integer format. -/
def intLo (w : Nat) (signed : Bool) : Int := if signed then -(2 ^ (w - 1) : Nat) else 0
def intHi (w : Nat) (signed : Bool) : Int := if signed then (2 ^ (w - 1) - 1 : Nat) else (2 ^ w - 1 : Nat)

/-- Encode an element y under scale s: its code, and whether it counts a saturation (R272 to R275); `lost`: the group's m
or Qmax is 0. -/
def encodeElem (f : QFmt) (s : BitVec 16) (lost : Bool) (y : Word) : Nat × Bool :=
  let t : Word := if s = 0 then 0 else f32Div y (f32OfBf16 s.toNat)
  match fpDec 23 y.toNat, f with
  | .nan, .int .. => (0, true)
  | .nan, .book e _ => (nearest e 0, true)
  | .inf neg, .int w sg =>
    let v := if neg then intLo w sg else intHi w sg
    ((v % (2 ^ w : Nat)).toNat, true)
  | .inf neg, .book e _ => (extremeEntry e (!neg), true)
  | .fin _ m _, .int w sg =>
    let r := match fpDec 23 t.toNat with
      | .fin n k x => finToInt n k x false
      | .inf n => if n then intLo w sg - 1 else intHi w sg + 1
      | .nan => 0
    let c := max (intLo w sg) (min (intHi w sg) r)
    ((c % (2 ^ w : Nat)).toNat, c != r || (lost && m != 0))
  | .fin _ m _, .book e _ => (nearest e t, lost && m != 0)

/-- Encode a group: scale, codes and saturations. -/
def encodeGroup (f : QFmt) (ys : List Word) : BitVec 16 × List Nat × Nat :=
  let m := groupMax f ys
  let (s, lim) := groupScale f m
  let cs := ys.map (encodeElem f s (m == 0 || f.qmax == 0))
  (s, cs.map (·.1), b2n lim + (cs.filter (·.2)).length)

/-- Bits of a code. -/
def QFmt.bits : QFmt → Nat
  | .int w _ => w
  | .book e _ => if e.length = 16 then 4 else 8

/-- Codes packed little-end first (R257). -/
def packCodes (b : Nat) (cs : List Nat) : List Byte :=
  leBytes (b * cs.length / 8) (cs.foldr (fun c x => c + 2 ^ b * x) 0)

/-- The format of a QOUT descriptor (Table 6-8); none where it names a slot that is not loaded. -/
def Tile.qfmt (t : Tile) (d : List Byte) : Option QFmt :=
  let w := leAt d 2 1 % 32
  let kind := leAt d 2 1 / 32 % 4
  if kind < 2 then some (.int w (kind == 0))
  else
    let sl := t.cb.get {} (leAt d 3 1 + (if kind = 3 then 8 else 0))
    if sl.loaded then some (.book sl.entries sl.qmax) else none

/-- The codebook slot a QOUT searches, as an MLOAD target number. -/
def qoutSlot (d : List Byte) : Option Nat :=
  let kind := leAt d 2 1 / 32 % 4
  if kind < 2 then none else some (leAt d 3 1 % 8 + (if kind = 3 then 8 else 0))

/-- Is an MLOAD MODE 3 to a slot issued before `seq` unfinished (R279). -/
def Tile.slotLoading (t : Tile) (slot seq : Nat) : Bool :=
  (t.feeder ++ t.loads).any fun o => match o.kind with
    | .mload d => leAt d 4 1 / 16 == modeTable && leAt d 1 1 % 16 == slot && decide (o.seq < seq)
    | _ => false

/-- The rotation size of a QOUT. -/
def qoutRotate (d : List Byte) : Nat :=
  match leAt d 4 1 % 4 with | 0 => 0 | 1 => 32 | 2 => 64 | _ => 128

/-- A row of a QOUT after its stages 2 to 5: codes packed, scales, saturations (R267). -/
def quantRow (f : QFmt) (d : List Byte) (smooth : List Word) (xs : List Word) : List Byte × List Byte × Nat :=
  let ys := if smooth = [] then xs else xs.mapIdx fun i x => f32Mul x (smooth.getD i 0)
  let n := qoutRotate d
  let ys := if n = 0 then ys else (chunks n (ys.length / n) ys).flatMap (hadamardBlock n)
  let g := groupSize (leAt d 4 1 / 16 % 4)
  let gs := (chunks g (ys.length / g) ys).map (encodeGroup f)
  (packCodes f.bits (gs.flatMap fun x => x.2.1), gs.flatMap fun x => leBytes 2 x.1.toNat, gs.foldl (fun a x => a + x.2.2) 0)

/-- Change the operation at the head of the Chipper's queue. -/
def State.modCop (s : State) (n : Nat) (f : COp → COp) : State :=
  s.modTile n fun t => match t.chipper with | o :: r => { t with chipper := f o :: r } | [] => t

/-- The QOUT at the head ends, however it does: its saturations are counted and event 0x1010 raised (R275, R281), and event
0x1012 for poison (R614). -/
def State.qoutEnd (s : State) (n : Fin 144) : State :=
  match (s.tile n).chipper.head? with
  | none => s
  | some o =>
    let s := if o.sats = 0 then s
      else (s.countBy (Reg.TILE n Reg.TILE_SAT_CNT) o.sats).raiseLim 0x1010 n fun _ =>
        min o.sats (2 ^ 32 - 1) + 2 ^ 32 * (o.addr.toNat % 2 ^ 20)
    let s := match o.poisonAt with
      | some a => s.raise 0x1012 n (a + 2 ^ 48 * 0x06)
      | none => s
    s.modTile n fun t => { t with chipper := t.chipper.drop 1 }

/-- A QOUT fails with a deferred cause. -/
def State.qoutFail (s : State) (n : Fin 144) (cause tval : Nat) : State :=
  (s.qoutEnd n).defer (.tile n) ⟨cause, 3, 0, BitVec.ofNat 64 tval⟩

/-- A write of the QOUT at the head to an address is refused: one that proves unreachable (0x05, 0x09) fails it with 0x10 and
its descriptor's address (R218), another with the cause that the refusing agent reports (log 68). -/
def State.qoutRefused (s : State) (n : Fin 144) (cause addr : Nat) : State :=
  if cause = 0x05 ∨ cause = 0x09 then s.qoutFail n 0x10 (((s.tile n).chipper.head?.map (·.addr.toNat)).getD 0)
  else s.qoutFail n cause addr

/-- The source values of row r of a QOUT as FP32, with their poison (R267, R614). -/
def State.qoutRow (s : State) (n : Nat) (o : COp) (r : Nat) : RowRes (List Word × Option Nat) × State :=
  let len := leAt o.desc 6 2
  match o.values with
  | some vs =>
    let row := (vs.drop (r * len)).take len
    (.ok (row.map (·.1), row.findSome? (·.2)), s)
  | none =>
    let b := if leAt o.desc 1 1 = 1 then 4 else 2
    match s.engineRead n (leAt o.desc 12 4 % 2 ^ 20 + r * leAt o.desc 16 4) (len * b) oBuck rqChip with
    | (.refused x, s) => (.refused x, s)
    | (.waits, s) => (.waits, s)
    | (.got bs p, s) =>
      (.ok ((List.range len).map fun i =>
        if b = 4 then BitVec.ofNat 32 (leAt bs (4 * i) 4) else f32OfBf16 (leAt bs (2 * i) 2), p.map (s.spAddr n)), s)

/-- The smoothing factors of a QOUT; empty where it does not smooth. -/
def State.qoutSmooth (s : State) (n : Nat) (d : List Byte) : EngRead × State :=
  if (leAt d 4 1).testBit 2 then s.engineRead n (leAt d 20 4 % 2 ^ 20) (2 * leAt d 6 2) oBuck rqChip else (.got [] none, s)

/-- Bytes of a word that pieces do not write. -/
def uncovered (ps : List Piece) : List Nat :=
  (List.range 64).filter fun i => !ps.any fun p => decide (p.addr % 64 ≤ i ∧ i < p.addr % 64 + p.bytes.length)

/-- The one write of a word that SETFULL 1 makes of its pieces (R209): FE.WRITE writes all of its 64 bytes, and those that no
piece gives are free values (log 83). -/
def State.feWord (s : State) (ps : List Piece) : Option Piece × State :=
  match ps with
  | [] => (none, s)
  | p :: _ =>
    let (rest, s) := if uncovered ps = [] then (0, s) else s.draw 512
    let bytes := ps.foldl (fun bs (q : Piece) =>
      let lo := q.addr % 64
      bs.take lo ++ q.bytes ++ bs.drop (lo + q.bytes.length)) (leBytes 64 rest.toNat)
    (some { addr := p.addr / 64 * 64, bytes := bytes, poison := ps.any (·.poison), how := .fe, nf := (ps.map (·.nf)).sum }, s)

/-- The writes of pieces in their order: under SETFULL 1 one of each word that its pieces complete, or of each word if no more
follow; then the pieces of the word begun last. -/
def State.feWords : List Piece → List Piece → Bool → State → List Piece × List Piece × State
  | part, [], final, s =>
    if final || uncovered part = [] then
      let (w, s) := s.feWord part
      (w.toList, [], s)
    else ([], part, s)
  | part, p :: ps, final, s =>
    match part with
    | [] => State.feWords [p] ps final s
    | q :: _ =>
      if q.addr / 64 = p.addr / 64 then State.feWords (part ++ [p]) ps final s
      else
        let (w, s) := s.feWord part
        let (ws, part, s) := State.feWords [p] ps final s
        (w.toList ++ ws, part, s)

/-- The QOUT at the head works row by row as far as it can: the data plane, then the scale plane. -/
def State.qoutRun (n : Fin 144) (f : QFmt) : Nat → State → State
  | 0, s => s
  | fuel + 1, s =>
    match (s.tile n).chipper.head? with
    | none => s
    | some o =>
      let d := o.desc
      let (left, stop, s) := State.outPieces n 1 true o.out s
      let s := s.modCop n fun (o : COp) => { o with out := left }
      match stop with
      | some (.refused c) => s.qoutRefused n c (match left.head? with | some p => p.addr | none => 0)
      | some (.sent tag) => s.modCop n fun (o : COp) => { o with tag := some tag }
      | some _ => s
      | none =>
        if leAt d 8 4 ≤ o.row then
          if o.lateDone then s.qoutEnd n
          else
            let (ws, _, s) := if leAt d 5 1 % 4 = 1 then State.feWords [] o.late true s else (o.late, [], s)
            qoutRun n f fuel (s.modCop n fun (o : COp) => { o with out := ws, late := [], lateDone := true })
        else
          let r := o.row
          match s.qoutRow n o r with
          | (.refused x, s) => s.qoutFail n 0x07 (s.spAddr n x)
          | (.waits, s) => s
          | (.ok (xs, p), s) =>
            match s.qoutSmooth n d with
            | (.refused x, s) => s.qoutFail n 0x07 (s.spAddr n x)
            | (.waits, s) => s
            | (.got sm p', s) =>
              let smooth := (List.range (sm.length / 2)).map fun i => f32OfBf16 (leAt sm (2 * i) 2)
              let p := p.or (p'.map (s.spAddr n))
              let (codes, scales, sat) := quantRow f d smooth xs
              let sf := leAt d 5 1 % 4
              let da := leAt d 24 8 + r * leAt d 40 4
              let sa := leAt d 32 8 + r * leAt d 44 4
              let ps := piecesOf da codes (fun _ => p.isSome) (setfullHow sf)
              let qs := piecesOf sa scales (fun _ => p.isSome) (setfullHow sf) ++
                (if leAt d 8 4 ≤ r + 1 then lastTag sf (sa + scales.length) else [])
              let (ws, part, s) := if sf = 1 then State.feWords o.part ps (decide (leAt d 8 4 ≤ r + 1)) s else (ps, [], s)
              qoutRun n f fuel (s.modCop n fun (o : COp) =>
                { o with row := r + 1, out := ws, part := part, late := o.late ++ qs,
                         sats := o.sats + (if p.isSome then 0 else sat), poisonAt := o.poisonAt.or p })

/-- The Chipper works on the QOUT at its head: once its values are handed over, an earlier load of its slot is done and no
write is outstanding (R190, R279, R280). -/
def State.qoutStep (s : State) (n : Fin 144) : State :=
  match (s.tile n).chipper.head? with
  | none => s
  | some o =>
    let loading := match qoutSlot o.desc with
      | some k => (s.tile n).slotLoading k o.seq
      | none => false
    if o.tag.isSome || loading || (o.fromClose && o.values.isNone) || (s.tile n).heldBack oBuck o.seq then s
    else
      match (s.tile n).qfmt o.desc with
      | none => s.qoutFail n 0x17 o.addr.toNat
      | some f => State.qoutRun n f (leAt o.desc 8 4 + 3) s

end Sys2Proof.Machine
end

