-- ==== Sys2Proof/Machine/Feeder.lean ====
section
/-! DEFINITION. The Feeder (chapters 06 to 08, 19): starting its operations in order, loads, passes, re-runs and held
passes. -/

namespace Sys2Proof.Machine
open Sys2Proof

/-- A deferred exception of the Feeder's operation. -/
def State.feedFault (s : State) (n : Fin 144) (code unit tval : Nat) : State :=
  s.defer (.tile n) ⟨code, 1, unit, BitVec.ofNat 64 tval⟩

/-- The codebook slot an MRUN expands from, as an MLOAD target number. -/
def mrunSlot (d : List Byte) : Option Nat :=
  let k := leAt d 5 1 / 32
  if k = 0 then none else some (leAt d 6 1 % 8 + (if k = 2 then 8 else 0))

/-- May the head of the queue leave it: its macros are free of the operations before it. -/
def Tile.macrosFree (t : Tile) (o : FOp) : Bool :=
  (List.range 16).all fun m => !(o.uses m) || !(t.loads.any fun p => p.uses m)

/-- The ranges of HBM that an MLOAD reads, in order: its source and its scale table, as address and length (R184, R753). -/
def loadRanges (d : List Byte) : List (Nat × Nat) :=
  let mode := leAt d 4 1 / 16
  let nrg := leAt d 3 1
  let src := if mode = modeTable then (leAt d 8 8, if leAt d 1 1 % 16 < 8 then 32 else 512)
    else (leAt d 8 8, srcBytes mode nrg (leAt d 4 1 % 16) (leAt d 6 2))
  let sc := if mode ≠ modeTable ∧ (leAt d 5 1).testBit 2
    then [(leAt d 16 8, 2 * nrg * leAt d 6 2 * (128 / groupSize (leAt d 5 1 % 4)))] else []
  (src :: sc).filter fun r => (spTile (r.1 % 2 ^ 40)).isNone

/-- The MLOAD with an issue number asks for its next range of HBM: one read for each range, under a tag of the tile (R395,
log 69); on a full quota it waits, counted once. -/
def State.loadAsk (s : State) (n seq : Nat) : State :=
  match (s.tile n).loads.find? fun o => o.seq == seq with
  | none => s
  | some o =>
    match o.kind, o.tag with
    | .mload d, none =>
      match (loadRanges d)[o.reads.length]? with
      | none => s
      | some (a, len) =>
        if s.mayIssue n then
          let (tag, s) := s.sendTxn { agent := n, origin := .engine 2, addr := a, op := .read len }
          s.modTile n fun t => t.modOp seq fun (o : FOp) => { o with tag := some tag, quota := false }
        else if o.quota then s
        else (s.quotaStall n).modTile n fun t => t.modOp seq fun (o : FOp) => { o with quota := true }
    | _, _ => s

/-- The answer to a read of an MLOAD: its bytes, or nothing where it is poisoned or refused; the next read follows. -/
def State.loadRead (s : State) (n tag : Nat) (r : Option (List Byte)) : State :=
  match (s.tile n).loads.find? fun o => o.tag == some tag with
  | none => s
  | some o =>
    (s.modTile n fun t => t.modOp o.seq fun (o : FOp) => { o with reads := o.reads ++ [r], tag := none }).loadAsk n o.seq

/-- The reads of MLOADs of tile n that a full quota has kept back are asked for. -/
def State.loadsGo (s : State) (n : Nat) : State := ((s.tile n).loads.map (·.seq)).foldl (fun s q => s.loadAsk n q) s

/-- The restore's target tile reads the golden copy under a tag of its own (R395, R620), unless the read is under way or done;
on a full quota it waits. -/
def State.restoreAsk (s : State) : State :=
  match s.restore with
  | none => s
  | some p =>
    let asked := match p.tag.bind s.txn with
      | some t => t.agent == p.req.tile && t.origin == .engine 3 && !t.orphan && !t.freed
      | none => false
    if asked || p.got.isSome || !s.reachable p.req.tile || !s.mayIssue p.req.tile then s
    else
      let (tag, s) := s.sendTxn { agent := p.req.tile, origin := .engine 3, addr := 0xFF * 2 ^ 40 + p.src, op := .read 2304 }
      { s with restore := some { p with tag := some tag } }

/-- The answer to the restore's read. -/
def State.restoreRead (s : State) (tag : Nat) (r : Option (List Byte)) : State :=
  match s.restore with
  | some p => if p.tag = some tag then { s with restore := some { p with got := some r } } else s
  | none => s

/-- The Feeder starts operations in issue order (R207, R239, R279, R313): an MRUN starts once earlier operations of its
group are done and its slot is loaded, and leaves the queue when its macros have taken it up. -/
def State.feederStart (n : Fin 144) : Nat → State → State
  | 0, s => s
  | fuel + 1, s =>
    let t := s.tile n
    match t.feeder with
    | [] => s
    | o :: rest =>
      let go := fun (s : State) => feederStart n fuel
        ((s.modTile n fun t => { t with feeder := rest, loads := t.loads ++ [{ o with started := true }] }).loadAsk n o.seq)
      let drop := fun (s : State) => s.modTile n fun t => { t with feeder := rest }
      if t.heldBack oFeed o.seq then s else
      match o.kind with
      | .mload d => if leAt d 4 1 / 16 = modeTable || t.macrosFree o then go s else s
      | .mscrub _ _ => if t.macrosFree o then go s else s
      | .mrun d =>
        let g := leAt d 12 1
        let loading := match mrunSlot d with | some k => t.slotLoading k o.seq | none => false
        if o.started then if t.macrosFree o then go s else s
        else if t.bopBefore g o.seq || loading then s
        else if !(t.groups.get {} g).isOpen then feederStart n fuel ((drop s).feedFault n 0x16 g o.addr.toNat)
        else
          match mrunSlot d with
          | some k =>
            if !(t.cb.get {} k).loaded then feederStart n fuel ((drop s).feedFault n 0x17 0 o.addr.toNat)
            else if t.macrosFree o then go s
            else s.modTile n fun t => { t with feeder := { o with started := true } :: rest }
          | none =>
            if t.macrosFree o then go s
            else s.modTile n fun t => { t with feeder := { o with started := true } :: rest }

/-- The engines of a tile go on after a change: finished passes are applied, and the Bucker and the Feeder start what they
can. -/
def State.engines (s : State) (n : Fin 144) : State :=
  let s := s.modTile n fun t => t.applyAll
  let s := State.buckerRun n 5 s
  let s := State.feederStart n 3 s
  State.feederStart n 3 (State.buckerRun n 5 s)

/-! ### MLOAD and MSCRUB -/

/-- What an MLOAD's source reads as. -/
inductive LoadRes where
  | got (bytes : List Byte)
  | failed (cause tval : Nat)
  /-- a handover holds the bank, or a read of HBM is not answered yet -/
  | waits

/-- Read `len` bytes of an MLOAD source (R184, R753): from the own scratchpad through the Feeder's port, or the `k`-th of its
reads of HBM. -/
def State.loadSource (s : State) (n : Nat) (o : FOp) (a len k : Nat) : LoadRes × State :=
  match spTile (a % 2 ^ 40) with
  | some _ =>
    match s.engineRead n (a % 2 ^ 20) len oFeed rqFeed with
    | (.refused x, s) => (.failed 0x07 (s.spAddr n x), s)
    | (.waits, s) => (.waits, s)
    | (.got bs none, s) => (.got bs, s)
    | (.got _ (some _), s) => (.failed 0x19 o.addr.toNat, s)
  | none => (match o.reads[k]? with
    | none => .waits
    | some none => .failed 0x19 o.addr.toNat
    | some (some bs) => .got bs, s)

/-- An MLOAD of modes PLANES, CB16 and RAW ends, unless its source is not all there (R184, R185, R612, R753). -/
def State.loadEnd (s : State) (n : Fin 144) (o : FOp) (d : List Byte) : State :=
  let m := leAt d 1 1 % 16
  let rg0 := leAt d 2 1
  let nrg := leAt d 3 1
  let w := leAt d 4 1 % 16
  let mode := leAt d 4 1 / 16
  let g := leAt d 5 1 % 4
  let nch := leAt d 6 2
  let unit := m + 16 * (rg0 % 32)
  let drop := fun (s : State) => s.modTile n fun t => t.dropOp o.seq
  let fail := fun (c tv : Nat) (s : State) =>
    let s := if c = 0x19 then s.unrecord n m rg0 nrg else s
    (drop s).feedFault n c (if c = 0x19 then unit else 0) tv
  match s.loadSource n o (leAt d 8 8) (srcBytes mode nrg w nch) 0 with
  | (.waits, s) => s
  | (.failed c tv, s) => fail c tv s
  | (.got src, s) =>
    if (leAt d 5 1).testBit 2 then
      match s.loadSource n o (leAt d 16 8) (2 * nrg * nch * (128 / groupSize g)) (b2n (spTile (leAt d 8 8 % 2 ^ 40)).isNone) with
      | (.waits, s) => s
      | (.failed c tv, s) => fail c tv s
      | (.got sc, s) => (drop s).loadRows n m rg0 nrg w nch g mode ((d.drop 32).take 16) src (some sc)
    else (drop s).loadRows n m rg0 nrg w nch g mode ((d.drop 32).take 16) src none

/-- An MLOAD MODE 3 ends, unless its source is not all there: the slot takes the table, or is left not loaded (R263, R280). -/
def State.tableEnd (s : State) (n : Fin 144) (o : FOp) (d : List Byte) : State :=
  let k := leAt d 1 1 % 16
  let e := leAt d 4 1 % 16
  let cnt := if k < 8 then 16 else 256
  let drop := fun (s : State) => s.modTile n fun t => { t.dropOp o.seq with cb := t.cb.set {} k {} }
  match s.loadSource n o (leAt d 8 8) (2 * cnt) 0 with
  | (.waits, s) => s
  | (.failed c tv, s) => (drop s).feedFault n c 0 tv
  | (.got src, s) =>
    let es := (List.range cnt).map fun i => BitVec.ofNat 16 (leAt src (2 * i) 2)
    if es.all fun x => decide (-(2 ^ (e - 1) : Nat) ≤ x.toInt ∧ x.toInt < (2 ^ (e - 1) : Nat)) then
      (drop s).modTile n fun t => { t with cb := t.cb.set {} k ⟨true, e, codebookQmax es, es⟩ }
    else (drop s).feedFault n 0x10 0 o.addr.toNat

/-- Does an earlier operation still use a slot that a load would change (R279). -/
def Tile.slotUsed (t : Tile) (k seq : Nat) : Bool :=
  ((t.feeder ++ t.loads).any fun o => match o.kind with
    | .mrun d => mrunSlot d == some k && decide (o.seq < seq)
    | _ => false) || t.chipper.any fun c => qoutSlot c.desc == some k && decide (c.seq < seq)

/-- The MLOAD at a target (macro 0 to 15, or 16 + slot) ends, if one is at work there, no pass precedes it and its reads of
HBM are answered; those that a full quota has kept back are asked for. -/
def State.mloadDone (s : State) (n : Fin 144) (target : Nat) : State :=
  let s := s.loadsGo n
  let t := s.tile n
  let op := t.active.find? fun o =>
    if target < 16 then o.uses target
    else match o.kind with
      | .mload d => leAt d 4 1 / 16 == modeTable && leAt d 1 1 % 16 == target - 16
      | _ => false
  match op with
  | none => s
  | some o =>
    match o.kind with
    | .mload d =>
      if target < 16 then (s.loadEnd n o d).engines n
      else if t.slotUsed (target - 16) o.seq then s
      else (s.tableEnd n o d).engines n
    | _ => s

/-- The MSCRUB at work ends (R188). -/
def State.mscrubDone (s : State) (n : Fin 144) : State :=
  let t := s.tile n
  match t.active.find? fun o => match o.kind with
    | .mscrub m _ => (t.active.find? fun p => p.uses m).map (·.seq) == some o.seq
    | _ => false with
  | some o =>
    match o.kind with
    | .mscrub m rg => ((s.modTile n fun t => t.dropOp o.seq).scrubRowGroup n m rg).engines n
    | _ => s
  | none => s

/-! ### Passes (R185 to R187, R228 to R237, R248 to R251, R313, R613) -/

/-- Change the progress of an MRUN on macro m. -/
def State.modProg (s : State) (n seq m : Nat) (f : MacProg → MacProg) : State :=
  s.modTile n fun t => t.modOp seq fun (o : FOp) => { o with prog := o.prog.set {} m (f (o.prog.get {} m)) }

/-- The whole MRUN fails (R218, R251): no further pass runs, and passes not yet applied are discarded. -/
def State.mrunFail (s : State) (n : Fin 144) (o : FOp) (code unit tval : Nat) : State :=
  (s.modTile n fun t => t.dropOp o.seq).feedFault n code unit tval

/-- The remaining passes of an MRUN on macro m are abandoned with a deferred cause (R249, Table 19-3). -/
def State.abandonMac (s : State) (n : Fin 144) (o : FOp) (m code rg : Nat) : State :=
  (s.modProg n o.seq m fun (p : MacProg) => { p with abandoned := true, hold := none }).feedFault n code (m + 16 * rg)
    o.addr.toNat

/-- The passes of an MRUN on macro m are held, after a second mismatch or before a LOST row-group, and a restore is requested
(R249, R619). -/
def State.holdMac (s : State) (n : Nat) (o : FOp) (m rg : Nat) (lost : Bool) : State :=
  (s.modProg n o.seq m fun (p : MacProg) =>
    { p with hold := some s.now, restored := p.restored || !lost }).requestRestore n m rg lost

/-- The activations of a pass from its 128 packed elements (R228, R229). -/
def expandInputs (d : List Byte) (slot : Slot) (bs : List Byte) : List Int :=
  let k := leAt d 5 1 / 32
  let a := leAt d 5 1 % 32
  let x := leNat bs
  (List.range 128).map fun i =>
    if k = 0 then
      let v := packed x a i
      if (leAt d 1 1).testBit 0 then sInt a v else (v : Int)
    else (slot.entries.getD (packed x (if k = 1 then 4 else 8) i) 0).toInt

/-- Bytes of an input vector (R257). -/
def inputBytes (d : List Byte) : Nat :=
  match leAt d 5 1 / 32 with | 0 => 16 * (leAt d 5 1 % 32) | 1 => 64 | _ => 128

/-- A finished pass is kept until its place in the logical order comes (R288); the macro's next pass follows. -/
def State.passDeliver (s : State) (n : Nat) (o : FOp) (m : Nat) (p : DonePass) : State :=
  let s := s.modTile n fun t => t.modOp o.seq fun (o : FOp) => { o with done := o.done ++ [p] }
  s.modProg n o.seq m fun (q : MacProg) => { q with done := q.done + 1, restored := false }

/-- The next pass of an MRUN on macro m runs; `first` and `rerun` are transient faults of the pass and of its re-run. -/
def State.runNext (s : State) (n : Fin 144) (o : FOp) (d : List Byte) (m : Nat) (first rerun : Option PassHit) : State :=
  let pg := o.prog.get {} m
  let nrg := leAt d 9 1
  let v := pg.done / nrg
  let k := pg.done % nrg
  let rg := leAt d 8 1 + k
  let ms := mrunMacros d
  let rank := (ms.idxOf? m).getD 0
  let rec' := s.rg n m rg
  let g := (s.tile n).groups.get {} (leAt d 12 1)
  let top := leAt d 40 4 + (leAt d 10 2 - 1) * leAt d 44 2 + rank * leAt d 46 2 + rec'.nch - 1
  if rec'.w = 0 ∨ rec'.w ≠ leAt d 4 1 % 16 ∨ rec'.group ≠ leAt d 7 1 % 4 ∨ g.nelem ≤ top then
    s.mrunFail n o 0x10 0 o.addr.toNat
  else if rec'.scales.isNone then s.mrunFail n o 0x17 0 o.addr.toNat
  else
    let h := s.healthOf n m rg
    let retry := (leAt d 1 1).testBit 2
    if h = rgFailed || (h == rgLost && !retry) then s.abandonMac n o m 0x13 rg
    else if h = rgLost then s.holdMac n o m rg true
    else
      let vi := if (leAt d 1 1).testBit 1 then 0 else rank
      let ioff := leAt d 16 4 % 2 ^ 20 + 16 * (v * leAt d 20 2 + k * leAt d 22 2 + vi * leAt d 24 2)
      match s.engineRead n ioff (inputBytes d) oFeed rqFeed with
      | (.refused x, s) => s.mrunFail n o 0x07 0 (s.spAddr n x)
      | (.waits, s) => s
      | (.got bs p, s) =>
        let ng := 128 / groupSize (leAt d 7 1 % 4)
        let soff := leAt d 28 4 % 2 ^ 20 + 2 * (v * leAt d 32 2 + k * leAt d 34 2 + vi * leAt d 36 2)
        match (if (leAt d 1 1).testBit 3 then (EngRead.got [] none, s) else s.engineRead n soff (2 * ng) oFeed rqFeed) with
        | (.refused x, s) => s.mrunFail n o 0x07 0 (s.spAddr n x)
        | (.waits, s) => s
        | (.got sb p', s) =>
          match p.or p' with
          | some x =>
            s.passDeliver n o m ⟨v, k, rank, List.replicate rec'.nch 0, some (s.spAddr n x)⟩
          | none =>
            let as' := (List.range (sb.length / 2)).map fun i => BitVec.ofNat 16 (leAt sb (2 * i) 2)
            let slot := match mrunSlot d with | some k => (s.tile n).cb.get {} k | none => {}
            let xs := expandInputs d slot bs
            let run := fun (hit : Option PassHit) => s.runPass n m rg rec'.w rec'.group xs hit
            let deliver := fun (s : State) (r : PassOut) =>
              s.passDeliver n o m ⟨v, k, rank,
                (List.range rec'.nch).map fun c => passValue (r.sums.getD c []) (rec'.chanScales c) as', none⟩
            let r1 := run first
            if r1.ok then deliver s r1
            else if pg.restored then
              let s := (s.count Reg.INTEG_CS_FAIL).countMac n m fun (x : MacCnt) => { x with fail := satInc x.fail }
              let s := (s.setHealth n m rg rgFailed).addRepair 3 n m rg (s.opsecNow % 2 ^ 32) 1
              s.abandonMac n o m 0x12 rg
            else
              let r2 := run rerun
              if r2.ok then
                let s := (s.count Reg.INTEG_CS_CORR).countMac n m fun (x : MacCnt) => { x with corr := satInc x.corr }
                deliver (s.raiseLim 0x2053 n fun _ => m + 16 * rg) r2
              else
                let s := (s.count Reg.INTEG_CS_FAIL).countMac n m fun (x : MacCnt) => { x with fail := satInc x.fail }
                let s := if s.healthOf n m rg = rgGood then s.setHealth n m rg rgSuspect else s
                if retry then s.holdMac n o m rg false else s.abandonMac n o m 0x12 rg

/-- Finished passes of macro m that wait for their place (R310). -/
def Tile.passesHeld (t : Tile) (m : Nat) : Nat :=
  (t.active.map fun o => match o.kind with
    | .mrun d => (o.done.filter fun p => (mrunMacros d)[p.rank]? == some m).length
    | _ => 0).sum

/-- Macro m of tile n finishes its next pass, if it has one to run: no operation before it holds the macro, the pass is not
held, and fewer than 32 finished passes of the macro wait (R310). -/
def State.passComplete (s : State) (n : Fin 144) (m : Nat) (first rerun : Option PassHit) : State :=
  match (s.tile n).active.find? fun o => o.uses m with
  | some o =>
    match o.kind with
    | .mrun d =>
      if (o.prog.get {} m).hold.isSome || decide (32 ≤ (s.tile n).passesHeld m) then s
      else (s.runNext n o d m first rerun).engines n
    | _ => s
  | none => s

end Sys2Proof.Machine
end

