-- ==== Sys2Proof/Machine/Skidder.lean ====
section
/-! DEFINITION. The Skidder (chapters 06 and 12): rings, gates, transfers, completion and failure of descriptors. -/

namespace Sys2Proof.Machine
open Sys2Proof

/-- Queue q of tile n beyond its registers. -/
def State.skq (s : State) (n q : Nat) : Skq := (s.tile n).skq.get {} q
def State.modSkq (s : State) (n q : Nat) (f : Skq → Skq) : State :=
  s.modTile n fun t => { t with skq := t.skq.set {} q (f (t.skq.get {} q)) }

/-- Post and completion counts. -/
def State.skPost (s : State) (n q : Nat) : Word := s.rd (Reg.TILE n (Reg.TILE_SKQ_POST q))
def State.skDone (s : State) (n q : Nat) : Word := s.rd (Reg.TILE n (Reg.TILE_SKQ_DONE q))
/-- Occupied entries (R388). -/
def State.skUsed (s : State) (n q : Nat) : Nat := (s.skPost n q - s.skDone n q).toNat
/-- Entries of the ring (R387). -/
def State.skSize (s : State) (n q : Nat) : Nat := 2 ^ s.getF (Reg.TILE n (Reg.TILE_SKQ_CFG q)) 3 0
def State.skEn (s : State) (n q : Nat) : Bool := s.bit (Reg.TILE n (Reg.TILE_SKQ_CFG q)) 4
/-- Offset of the ring entry of the p-th descriptor, counting from 0 (R387). -/
def State.skEntry (s : State) (n q : Nat) (p : Word) : Nat :=
  s.getF (Reg.TILE n (Reg.TILE_SKQ_BASE q)) 19 0 + 64 * (p.toNat % s.skSize n q)

/-- STATE of a queue (R393): 0 DISABLED, 1 IDLE, 2 ACTIVE, 3 HALTED. -/
def State.skState (s : State) (n q : Nat) : Nat :=
  if !s.skEn n q then 0 else if (s.skq n q).halted then 3 else if s.skUsed n q = 0 then 1 else 2

/-- A descriptor fails (R403). -/
def State.skFail (s : State) (n : Fin 144) (q cause addr : Nat) : State :=
  let e := s.spAddr n (s.skEntry n q (s.skDone n q))
  let s := s.modSkq n q fun (k : Skq) => { k with halted := true, started := none, wait := none, got := none, retry := false }
  let s := s.wr (Reg.TILE n Reg.TILE_SKQ_FAIL) (BitVec.ofNat 32 (q + 2 ^ 8 * cause + 2 ^ 31))
  let s := s.wr (Reg.TILE n Reg.TILE_SKQ_FADDR_LO) (BitVec.ofNat 32 addr)
  let s := s.wr (Reg.TILE n Reg.TILE_SKQ_FADDR_HI) (BitVec.ofNat 32 (addr / 2 ^ 32 % 2 ^ 16))
  let s := s.raise 0x1030 n (q + 2 ^ 8 * cause + 2 ^ 16 * (addr % 2 ^ 48))
  s.defer (.tile n) ⟨0x18, 4, q, BitVec.ofNat 64 e⟩

/-! ### Descriptor fields (Table 6-9) -/

def dmaOp (d : List Byte) : Nat := leAt d 1 1 % 4
def dmaCompl (d : List Byte) : Nat := leAt d 2 1 % 4
def dmaGate (d : List Byte) : Bool := (leAt d 2 1).testBit 2
def dmaDstFe (d : List Byte) : Bool := (leAt d 2 1).testBit 3
def dmaSrcFe (d : List Byte) : Bool := (leAt d 2 1).testBit 4
def dmaLen (d : List Byte) : Nat := leAt d 24 4
/-- Count of dimension k (0 to 2); 1 where it is unused. -/
def dmaCount (d : List Byte) (k : Nat) : Nat :=
  if leAt d 1 1 / 16 % 4 < k then 1 else leAt d (if k = 0 then 22 else 26 + 2 * k) 2
/-- Elements. -/
def dmaElems (d : List Byte) : Nat := dmaCount d 0 * dmaCount d 1 * dmaCount d 2
/-- Index of dimension k in element e, the first innermost (R198). -/
def dmaIndex (d : List Byte) (e k : Nat) : Nat :=
  match k with
  | 0 => e % dmaCount d 0
  | 1 => e / dmaCount d 0 % dmaCount d 1
  | _ => e / (dmaCount d 0 * dmaCount d 1)
/-- Base and strides: the address of element e, source strides at 32, destination strides at 44. -/
def dmaAddr (d : List Byte) (base strides e : Nat) : Nat :=
  let x : Int := (List.range 3).foldl (fun (a : Int) k =>
    a + (dmaIndex d e k : Int) * sInt 32 (leAt d (strides + 4 * k) 4)) (leAt d base 6 : Int)
  (x % (2 ^ 48 : Nat)).toNat
/-- Destination of element e. -/
def dmaDst (d : List Byte) (e : Nat) : Nat := dmaAddr d 10 44 e
/-- Source of element e, with index `x` of a GATHER (R198). -/
def dmaSrc (d : List Byte) (e x : Nat) : Nat :=
  if dmaOp d = 2 then
    let a : Int := (leAt d 4 6 : Int) + (x : Int) * sInt 32 (leAt d 32 4) +
      (dmaIndex d e 1 : Int) * sInt 32 (leAt d 36 4)
    (a % (2 ^ 48 : Nat)).toNat
  else dmaAddr d 4 32 e
/-- Address of the last destination byte. -/
def dmaLast (d : List Byte) : Nat := dmaDst d (dmaElems d - 1) + dmaLen d - 1

/-! ### One request of a queue -/

/-- What became of a request. -/
inductive SkRes where
  | got (bytes : List Byte) (poison : Bool)
  | refused (cause : Nat)
  /-- it waits at its slot, for its response, or for its retry -/
  | waits
  deriving DecidableEq, Repr

/-- Bytes an FE.WRITE carries. -/
def TOp.feData : TOp → Option (List Byte)
  | .feWrite d => some d
  | _ => none

/-- A plain access of the Skidder to its own scratchpad, within one word, through its port (Table 10-1); a handover to SKID
holds it. -/
def State.skOwn (s : State) (n o : Nat) (op : TOp) : SkRes × State :=
  let s := s.ownerUse n
  let w := s.spWord n o
  if s.newHolds n w oSkid then (.waits, s)
  else if s.ownerOf n w != oSkid then (.refused 0x07, s.refuseAt n o rqSkid)
  else
    match op with
    | .read len =>
      let (b, p, s) := s.readWord n w rqSkid
      (.got ((b.drop (o % 64)).take len) p, s)
    | .write segs =>
      (.got [] false, segs.foldl (fun s g => s.mergeWord n w rqSkid (enables ((o + g.1) % 64) g.2.length)
        (placeAt ((o + g.1) % 64) g.2)) s)
    | _ => (.refused 0x05, s)

/-- A full/empty operation of queue q at a slot of its own tile: it is held at the slot, or retries where the list is full
(R196). -/
def State.skSlot (s : State) (n q o : Nat) (op : TOp) : SkRes × State :=
  if s.spBusy n o op then (.waits, s)
  else match s.serveSp n o op n rqMesh with
    | (.resp (.refused c), s) => (.refused c, s)
    | (.resp (.data bs p _), s) => (.got bs p, s)
    | (.resp _, s) => (.got [] false, s)
    | (.notReady, s) =>
      match s.addWaiter n { agent := n, origin := .skid q, word := s.spWord n o, write := op.feData, tag := none } with
      | some s => (.waits, s.modSkq n q fun (k : Skq) => { k with wait := some none })
      | none => (.waits, s.modSkq n q fun (k : Skq) => { k with retry := true })

/-- A request of queue q leaves the tile under a tag, unless the quota is full (R395): a queue has one such request
outstanding (log 70). -/
def State.skSend (s : State) (n q a : Nat) (op : TOp) : SkRes × State :=
  if s.mayIssue n then
    let (tag, s) := s.sendTxn { agent := n, origin := .skid q, addr := a, op := op }
    (.waits, s.modSkq n q fun (k : Skq) => { k with wait := some (some tag), quota := false })
  else if (s.skq n q).quota then (.waits, s)
  else (.waits, (s.quotaStall n).modSkq n q fun (k : Skq) => { k with quota := true })

/-- A request of queue q of tile n at a global address (Table 12-2, R755): by the region of the address, of whichever chip, it
is served in the own scratchpad, sent, or refused with 0x05. -/
def State.skRequest (s : State) (n q a : Nat) (op : TOp) : SkRes × State :=
  let s := s.modSkq n q fun (k : Skq) => { k with at' := a }
  match regionAt (a % 2 ^ 40) op.span with
  | .sp m =>
    if m = n ∧ (s.localAddr a).isSome then
      if op.isFe then s.skSlot n q (a % 2 ^ 20) op else s.skOwn n (a % 2 ^ 20) op
    else s.skSend n q a op
  | .hbm => if op.isFe then (.refused 0x05, s) else s.skSend n q a op
  | _ => (.refused 0x05, s)

/-- A request, unless the answer to it has come while it waited. -/
def State.skAsk (s : State) (n q a : Nat) (op : TOp) : SkRes × State :=
  match (s.skq n q).got with
  | some (bs, p) => (.got bs p, s.modSkq n q fun (k : Skq) => { k with got := none })
  | none => s.skRequest n q a op

/-- Bytes of the unit at byte `off` of an element (R390): a word of the destination, or of the source under SRC_FE. -/
def unitLen (d : List Byte) (src dst off : Nat) : Nat :=
  min (dmaLen d - off) (64 - ((if dmaSrcFe d then src else dst) + off) % 64)

/-- What a request's answer does to the descriptor: it goes on with the bytes, fails by poison or refusal, or waits; the flag
says whether the queue has acted. -/
def SkRes.andThen (r : SkRes × State) (n : Fin 144) (q a : Nat) (f : List Byte → State → State) : Bool × State :=
  match r with
  | (.got _ true, s) => (true, s.skFail n q 0x08 a)
  | (.got bs false, s) => (true, f bs s)
  | (.refused c, s) => (true, s.skFail n q c a)
  | (.waits, s) => (false, s)

/-- The index that a GATHER takes for the element at work, from the own scratchpad through the Skidder's port (R198). -/
def State.skIndex (s : State) (n : Fin 144) (q : Nat) (d : List Byte) (e : Nat) : Bool × State :=
  let o := leAt d 56 4 % 2 ^ 20 + 4 * dmaIndex d e 0
  SkRes.andThen (s.skOwn n o (.read 4)) n q (s.spAddr n o) fun bs s =>
    s.modSkq n q fun (k : Skq) => { k with idx := some (leNat bs) }

/-- A write of the unit at work has been made: the rest of the unit, the next unit or the next element follows. -/
def Skq.wrote (k : Skq) (len m : Nat) : Skq :=
  if k.wdone + m < len then { k with wdone := k.wdone + m }
  else
    let k := { k with buf := [], haveBuf := false, wdone := 0 }
    if k.off + len < dmaLen k.desc then { k with off := k.off + len }
    else { k with off := 0, elem := k.elem + 1, idx := none }

/-- The unit of a FILL, from its pattern (R198); for another descriptor what has been read. -/
def Skq.unit (k : Skq) (len : Nat) : List Byte :=
  if dmaOp k.desc = 1 then
    let pat := leBytes 4 (leAt k.desc 56 4)
    (List.range len).map fun i => pat.getD ((k.off + i) % 4) 0
  else k.buf

/-- One action of the descriptor at work on queue q: its gate, the read of an index, a read or a write of its unit, or its tag
completion; the flag says whether it acted. -/
def State.skAct (s : State) (n : Fin 144) (q : Nat) : Bool × State :=
  let k := s.skq n q
  let d := k.desc
  if k.started.isNone || k.halted || k.wait.isSome || k.retry then (false, s)
  else if dmaGate d && !k.gated then
    SkRes.andThen (s.skAsk n q (leAt d 16 6) (.feRead false)) n q (leAt d 16 6) fun _ s =>
      s.modSkq n q fun (k : Skq) => { k with gated := true }
  else if dmaElems d ≤ k.elem then
    if dmaCompl d ≠ 1 || k.tagged then (false, s)
    else
      let a := dmaLast d / 64 * 64
      SkRes.andThen (s.skAsk n q a .feSet) n q a fun _ s => s.modSkq n q fun (k : Skq) => { k with tagged := true }
  else if dmaOp d = 2 && k.idx.isNone then s.skIndex n q d k.elem
  else
    let src := dmaSrc d k.elem (k.idx.getD 0)
    let dst := dmaDst d k.elem
    let len := unitLen d src dst k.off
    if dmaOp d = 1 || k.haveBuf then
      let a := dst + k.off + k.wdone
      let m := min (len - k.wdone) (64 - a % 64)
      let bs := ((k.unit len).drop k.wdone).take m
      SkRes.andThen (s.skAsk n q a (if dmaDstFe d then .feWrite bs else .write [(0, bs)])) n q a fun _ s =>
        s.modSkq n q fun (k : Skq) => k.wrote len m
    else
      let a := src + k.off + k.buf.length
      let m := min (len - k.buf.length) (64 - a % 64)
      SkRes.andThen (s.skAsk n q a (if dmaSrcFe d then .feRead false else .read m)) n q a fun bs s =>
        s.modSkq n q fun (k : Skq) => { k with buf := k.buf ++ bs, haveBuf := decide (len ≤ k.buf.length + m) }

/-- A tile clock cycle of the Skidder: of the queues, from the one whose turn it is, the first that has something to do acts
(R390); the flag says whether one did. -/
def State.skTurn (s : State) (n : Fin 144) : Bool × State :=
  (List.range 8).foldl (fun (acc : Bool × State) i =>
    let (done, s) := acc
    if done then (true, s)
    else
      let q := ((s.tile n).skNext + i) % 8
      match s.skAct n q with
      | (true, s) => (true, s.modTile n fun t => { t with skNext := (q + 1) % 8 })
      | (false, s) => (false, s)) (false, s)

/-- `k` cycles of the Skidder, or as many as there is something to do. -/
def State.skTurns (n : Fin 144) : Nat → State → State
  | 0, s => s
  | k + 1, s =>
    match s.skTurn n with
    | (true, s) => skTurns n k s
    | (false, s) => s

/-- A bound on the actions of a descriptor. -/
def dmaFuel (d : List Byte) : Nat := dmaElems d * (4 * (dmaLen d / 64 + 2) + 1) + 8

/-- The Skidder of tile n works as long as it can. -/
def State.skWork (s : State) (n : Fin 144) : State :=
  if s.quadRuns n then
    State.skTurns n (((List.range 8).filter fun q => (s.skq n q).started.isSome).map fun q => dmaFuel (s.skq n q).desc).sum s
  else s

/-- The descriptor at the head of queue q starts (R389, R403): its ring entry is read through the Skidder's port. -/
def State.skStart (s : State) (n : Fin 144) (q : Nat) : State :=
  let k := s.skq n q
  if !s.reachable n || !s.skEn n q || k.halted || k.started.isSome || s.skUsed n q = 0 ||
      (s.tile n).heldBack oSkid (s.tile n).issue then s
  else
    let o := s.skEntry n q (s.skDone n q)
    match s.engineRead n o 64 oSkid rqSkid with
    | (.refused x, s) => s.skFail n q 0x07 (s.spAddr n x)
    | (.waits, s) => s
    | (.got _ (some x), s) => s.skFail n q 0x08 (s.spAddr n x)
    | (.got d none, s) => s.modSkq n q fun _ => { started := some s.now, desc := d }

/-- The entry at the head of queue q is freed and counted (R391, R404). -/
def State.skFree (s : State) (n q : Nat) : State :=
  (s.countWrap (Reg.TILE n (Reg.TILE_SKQ_DONE q))).modSkq n q fun _ => {}

/-- The descriptor at work on queue q completes once everything of it is done (R391), the cycles passing that its requests
take: its COMPL action, the count, the freed entry. -/
def State.skComplete (s : State) (n : Fin 144) (q : Nat) : State :=
  let s := s.skWork n
  let k := s.skq n q
  let d := k.desc
  if k.started.isNone || k.halted || k.elem < dmaElems d || (dmaCompl d == 1 && !k.tagged) then s
  else
    let arg := leAt d 3 1
    let s := match dmaCompl d with
      | 2 => s.countWrap (Reg.TILE n (Reg.TILE_SKCNT (arg % 16)))
      | 3 => s.setBit (Reg.TILE n (if arg < 32 then Reg.TILE_EV_LO else Reg.TILE_EV_HI)) (arg % 32) true
      | _ => s
    s.skFree n q

/-- A request that waits is withdrawn at its target, and its tag released (R397). -/
def State.skCancel (s : State) (n q : Nat) : State :=
  match (s.skq n q).wait with
  | some (some tag) => s.cancelTag tag
  | some none => s.modTile n fun t =>
      { t with waiters := t.waiters.filter fun w => !(w.agent == n && w.origin == .skid q && w.tag.isNone) }
  | none => s

/-- The descriptor at work on queue q exceeds its TIMEOUT, if it has one (R392, R402). -/
def State.skTimeout (s : State) (n : Fin 144) (q : Nat) : State :=
  let k := s.skq n q
  if k.started.isNone || k.halted || leAt k.desc 60 2 = 0 then s else (s.skCancel n q).skFail n q 0x0B k.at'

/-- A queue refused with FULL or EMPTY tries again (R196). -/
def State.skRetry (s : State) (n : Fin 144) (q : Nat) : State :=
  if (s.skq n q).retry then ((s.modSkq n q fun (k : Skq) => { k with retry := false }).skAct n q).2 else s

/-- RESTART and SKIP of a halted queue (R404). -/
def State.skRestart (s : State) (n q : Nat) : State :=
  if (s.skq n q).halted then s.modSkq n q fun _ => {} else s
def State.skSkip (s : State) (n q : Nat) : State := if (s.skq n q).halted then s.skFree n q else s

/-- The response to the outstanding request of queue q. -/
def State.skResponse (s : State) (n : Fin 144) (q : Nat) (r : Resp) : State :=
  let k := s.skq n q
  match r with
  | .data bs p _ => s.modSkq n q fun (k : Skq) => { k with wait := none, got := some (bs, p) }
  | .ack => s.modSkq n q fun (k : Skq) => { k with wait := none, got := some ([], false) }
  | .refused c => s.skFail n q c k.at'
  | .retry => s.modSkq n q fun (k : Skq) => { k with wait := none, retry := true }

/-- TILE_SKQ_STAT. -/
def State.skStat (s : State) (n : Nat) : Word :=
  (List.range 8).foldl (fun w q => setFld w (4 * q + 1) (4 * q) (s.skState n q)) 0

end Sys2Proof.Machine
end

