-- ==== Sys2Proof/Machine/TileBase.lean ====
section
/-! DEFINITION. What a tile does around its engines (chapters 04, 06, 10, 12, 16): event bits and waiting instructions,
launch, resume, stop and draining, handover, stripes, the cache, scrubbing, initialisation, gating, and the loss or
retention of its contents. -/

namespace Sys2Proof.Machine
open Sys2Proof

/-! ### Event bits and waiting instructions (R202, R203, R217) -/

/-- Are all Skidder queues of tile n empty. -/
def State.skIdle (s : State) (n : Nat) : Bool := (List.range 8).all fun q => s.skUsed n q == 0

/-- The 64 event bits of a core: a tile's with its four level bits (R202), a Ranger core's with bit 56 (R178). -/
def State.eventBits (s : State) : CoreId → Nat
  | .tile n =>
    let t := s.tile n
    (s.rd (Reg.TILE n Reg.TILE_EV_LO)).toNat + 2 ^ 32 * s.getF (Reg.TILE n Reg.TILE_EV_HI) 23 0 +
    2 ^ 60 * b2n (t.feeder.isEmpty && t.loads.isEmpty) + 2 ^ 61 * b2n t.bucker.isEmpty +
    2 ^ 62 * b2n t.chipper.isEmpty + 2 ^ 63 * b2n (s.skIdle n)
  | .ranger k =>
    (s.rd (Reg.RANGER k 0x8)).toNat + 2 ^ 32 * s.getF (Reg.RANGER k 0xC) 23 0 +
    2 ^ 56 * b2n (!(s.notices.get [] k).isEmpty)

/-- Offset of the low word of a core's event bits; the high word follows. -/
def evOff : CoreId → Nat
  | .tile n => Reg.TILE n Reg.TILE_EV_LO
  | .ranger k => Reg.RANGER k 0x8

/-- Clear event bits below bit 56 of a core. -/
def State.clearEvents (s : State) (c : CoreId) (bits : Nat) : State :=
  let o := evOff c
  let s := s.wr o (s.rd o &&& ~~~(BitVec.ofNat 32 bits))
  s.wr (o + 4) (s.rd (o + 4) &&& ~~~(BitVec.ofNat 32 (bits / 2 ^ 32 % 2 ^ 24)))

/-- Set event bits below bit 56 of a core. -/
def State.setEvents (s : State) (c : CoreId) (bits : Nat) : State :=
  let o := evOff c
  let s := s.wr o (s.rd o ||| BitVec.ofNat 32 bits)
  s.wr (o + 4) (s.rd (o + 4) ||| BitVec.ofNat 32 (bits / 2 ^ 32 % 2 ^ 24))

/-- Is a WAITEV over `mask` satisfied by the bits `v` (R203). -/
def evSatisfied (v : Nat) (mask : Dword) (all : Bool) : Bool :=
  let m := mask.toNat
  decide (m = 0) || (if all then decide (v &&& m = m) else decide (v &&& m ≠ 0))

/-- WAITEV completes: the masked bits that are 1 go to the register, and those below bit 60 are cleared (R203). -/
def State.takeEvents (s : State) (c : CoreId) (mask : Dword) (rd : BitVec 5) : State :=
  let v := s.eventBits c &&& mask.toNat
  ((s.clearEvents c v).modCore c fun x => x.setS rd (BitVec.ofNat 64 v)).retire c

/-- Has queue q of tile n completed the descriptor of sequence number `target` (R200). -/
def State.dmaReached (s : State) (n q : Nat) (target : Word) : Bool := decide (0 ≤ (s.skDone n q - target).toInt)

/-- A waiting WAITEV or DMA.WAIT completes once what it waits for holds. -/
def State.poll (s : State) (c : CoreId) : State :=
  match (s.core c).wait with
  | .waitev mask all rd _ => if evSatisfied (s.eventBits c) mask all then s.takeEvents c mask rd else s
  | .dmaWait q target _ =>
    match c with
    | .tile n => if s.dmaReached n q target then s.retire c else s
    | .ranger _ => s
  | _ => s

/-- The waiting instruction of tile n, then. -/
def State.pollTile (s : State) (n : Fin 144) : State := s.poll (.tile n)

/-! ### Barriers (R201, R219, R220) -/

/-- Crew and size minus 1 of a core's task (Table 4-9, task id). -/
def Core.crew (x : Core) : Nat := fld x.taskid 23 16
def Core.crewSize (x : Core) : Nat := fld x.taskid 39 32

/-- A tile's arrivals at barriers are withdrawn. -/
def State.withdraw (s : State) (n : Nat) : State :=
  { s with barriers := (s.barriers.map fun (p : Nat × List Nat) => (p.1, p.2.filter (· != n))).filter fun p =>
      !p.2.isEmpty }

/-- Tile n arrives at barrier b of its crew; when SIZE + 1 tiles have arrived, all of them go on (R201). -/
def State.barArrive (s : State) (n : Fin 144) (b limit : Nat) : State :=
  let x := s.core (.tile n)
  let k := x.crew * 8 + b
  let l := (s.barriers.get [] k).filter (· != n.val) ++ [n.val]
  let s := s.modCore (.tile n) fun x => { x with wait := .bar b limit }
  if l.length ≤ x.crewSize then { s with barriers := s.barriers.set [] k l }
  else
    l.foldl (fun s m => if h : m < 144 then s.retire (.tile ⟨m, h⟩) else s) { s with barriers := s.barriers.set [] k [] }

/-! ### Stopping a wait (R117, R129, R219) -/

/-- The full/empty request of tile n's blocked sequencer is withdrawn, and its tag released (R397). -/
def State.cancelFe (s : State) (n : Nat) (tag : Option Nat) : State :=
  match tag with
  | some tg => s.cancelTag tg
  | none => s.modTile n fun t =>
      { t with waiters := t.waiters.filter fun w => !(w.agent == n && w.origin == .load && w.tag.isNone) }

/-- The blocked FE.READ, FE.WRITE, BAR or WAITEV of tile n abandons its wait, and an access that a full quota holds back is
not made (R117, Table 4-7); other waits go on. -/
def State.abandonWait (s : State) (n : Fin 144) : State :=
  match (s.core (.tile n)).wait with
  | .fe _ _ _ tag _ _ => (s.cancelFe n tag).modCore (.tile n) fun x => { x with wait := .none }
  | .bar _ _ => (s.withdraw n).modCore (.tile n) fun x => { x with wait := .none }
  | .waitev .. => s.modCore (.tile n) fun x => { x with wait := .none }
  | .fill job => if job.tag.isNone && job.raw.isEmpty then s.modCore (.tile n) fun x => { x with wait := .none } else s
  | _ => s

/-- STOP written: a RUNNING task stops at the next instruction boundary (R117). -/
def State.taskStop (s : State) (n : Fin 144) : State :=
  let s := { s with cap := { s.cap with held := s.cap.held.filter (· != n.val) } }
  if (s.tile n).core.task ≠ .running then s
  else
    let s := (s.abandonWait n).modCore (.tile n) fun x => { x with stopReq := true }
    if (s.core (.tile n)).wait = .none then s.boundary (.tile n) else s

/-! ### Launch and resume (R114, R115, Table 4-9) -/

/-- The task fields of TILE_TASK_CTRL, PC, ARG, ID and SIZE come into force at a GO (chapter 10, Registers). -/
def State.applyTask (s : State) (n : Nat) : State :=
  let regs := [Reg.TILE_TASK_CTRL, Reg.TILE_TASK_PC_LO, Reg.TILE_TASK_PC_HI, Reg.TILE_TASK_ID, Reg.TILE_TASK_SIZE] ++
    (List.range 8).map fun i => Reg.TILE_TASK_ARG 0 + 4 * i
  (regs.foldl (fun s r => s.apply (Reg.TILE n r)) s).clearPend (Reg.TILE n 0) 0xFF8

/-- The task id that a launch loads: task, crew, rank and size as written, tile and chip filled in. -/
def State.taskIdOf (s : State) (n : Nat) : Dword :=
  BitVec.ofNat 64 ((s.rd (Reg.TILE n Reg.TILE_TASK_ID)).toNat + 2 ^ 32 * s.getF (Reg.TILE n Reg.TILE_TASK_SIZE) 7 0 +
    2 ^ 40 * n + 2 ^ 48 * s.chipId)

/-- TILE_TASK_PC. -/
def State.taskPc (s : State) (n : Nat) : Dword := BitVec.ofNat 64 (s.rd64 (Reg.TILE n Reg.TILE_TASK_PC_LO))

/-- A fresh launch (R114, R220, R253, R295, Table 4-4). -/
def State.launch (s : State) (n : Fin 144) : State :=
  let s := ((s.applyTask n).withdraw n)
  let ctrl := s.rd (Reg.TILE n Reg.TILE_TASK_CTRL)
  let args := (List.range 4).foldl (fun (m : SMap Dword) k =>
    m.set 0 (k + 1) (BitVec.ofNat 64 (s.rd64 (Reg.TILE n (Reg.TILE_TASK_ARG k))))) []
  let res := (s.rd (Reg.TILE n Reg.TILE_RESIDENT)).toNat
  let s := (List.range 16).foldl (fun s m => if res.testBit (16 + m) then s else s.unrecord n m 0 32) s
  let pc := s.taskPc n
  let tid := s.taskIdOf n
  let seed := lfsrSeed (s.inForce (Reg.TILE n Reg.TILE_BUCK_SEED))
  s.modTile n fun t =>
    { t with
      exit := none, notify := BitVec.ofNat 2 (fld ctrl 5 4), groups := [], issuedNelem := [], epoison := []
      lfsr := seed
      core := { pc := pc, s := args, status := setFld (0 : Dword) 6 6 (fld ctrl 3 3), taskid := tid, task := .running
                cycle0 := t.core.cycle0 } }

/-- A resume (R115). -/
def State.resume (s : State) (n : Fin 144) : State :=
  let s := s.applyTask n
  let ctrl := s.rd (Reg.TILE n Reg.TILE_TASK_CTRL)
  let pc := s.taskPc n
  s.modTile n fun t =>
    { t with
      exit := none, notify := BitVec.ofNat 2 (fld ctrl 5 4)
      core := { t.core with pc := pc, cause := 0, epc := 0, tval := 0, task := .running, wait := .none,
                            stopReq := false, deferred := [] } }

/-- GO with its RESUME bit at the TILE block (R114, R115, R129, R541): not allowed, it is ignored with event 0x1003; while
fixed mode holds launches it waits. The first GO closes the repair window (R628). -/
def State.taskGo (s : State) (n : Fin 144) (resume : Bool) : State :=
  let s := s.setBit Reg.INTEG_REPAIR 0 false
  let st := (s.tile n).core.task
  let ok := match st with
    | .stopped => true
    | .idle | .halted => !resume
    | _ => false
  if !ok then s.raise 0x1003 n (st.code + 8 * b2n resume)
  else if s.cap.hold then
    { s.count Reg.PWR_FIX_HELD with cap := { s.cap with held := s.cap.held.filter (· != n.val) ++ [n.val] } }
  else if resume then s.resume n
  else s.launch n

/-! ### Draining (R116, R120) -/

/-- Has everything that a DRAINING tile waits for completed (R116, Table 12-3). -/
def State.drained (s : State) (n : Nat) : Bool :=
  let t := s.tile n
  t.feeder.isEmpty && t.loads.isEmpty && t.bucker.isEmpty && t.chipper.isEmpty &&
    ((List.range 8).all fun q => s.skUsed n q == 0 || (s.skq n q).halted) &&
    !(s.tagList.any fun p => p.2.agent == n && p.2.origin == .store && !p.2.orphan)

/-- DRAINING ends: HALTED with its exit code and notice, or STOPPED with event 0x1001 and notice (R116, R120). -/
def State.drainEnd (s : State) (n : Fin 144) : State :=
  let t := s.tile n
  if t.core.task ≠ .draining || !s.drained n then s
  else
    match t.exit with
    | some c =>
      let s := s.modTile n fun t => { t with idleSince := s.now, core := { t.core with task := .halted } }
      (s.setF (Reg.TILE n Reg.TILE_TASK_STAT) 15 4 c.toNat).postNotice n 0
    | none =>
      let s := s.modTile n fun t => { t with core := { t.core with task := .stopped } }
      (s.raise 0x1001 n (t.core.cause.toNat % 2 ^ 16 + 2 ^ 16 * (t.core.epc.toNat % 2 ^ 48))).postNotice n 1

/-- A held notice is posted once its queue has room (chapter 15, Registers). -/
def State.postHeld (s : State) (k : Nat) : State :=
  match (List.range 144).find? fun n => (s.tile n).notify.toNat == k && !(s.tile n).noticeHeld.isEmpty with
  | none => s
  | some n =>
    match (s.tile n).noticeHeld with
    | [] => s
    | kind :: rest =>
      if 512 ≤ (s.notices.get [] k).length then s
      else
        let s := s.modTile n fun t => { t with noticeHeld := rest }
        { s with notices := s.notices.set [] k (s.notices.get [] k ++ [n + 256 * kind]) }

/-! ### The cache (R341 to R344, R354) -/

/-- The banks that CACHE owns, as a set. -/
def State.cacheBanks (s : State) (n : Nat) : List Nat := (List.range 16).filter fun b => s.owner n b == oCache
/-- Sets of the cache (Table 10-4); 0 without one. -/
def State.cacheSets (s : State) (n : Nat) : Nat := 256 * (s.cacheBanks n).length

/-- The way of the tree pseudo-LRU that is replaced next: bit 0 the root, bits 1 and 2 its left and right pair. -/
def plruWay (b : BitVec 3) : Nat :=
  if b.getLsbD 0 then (if b.getLsbD 2 then 3 else 2) else (if b.getLsbD 1 then 1 else 0)
/-- The tree after a use of a way: every node on its path points away from it. -/
def plruUse (b : BitVec 3) (w : Nat) : BitVec 3 :=
  let b := setFld b 0 0 (if w < 2 then 1 else 0)
  if w < 2 then setFld b 1 1 (if w = 0 then 1 else 0) else setFld b 2 2 (if w = 2 then 1 else 0)

/-- Line `a` (address / 64) in the cache of tile n: its way. -/
def State.cacheFind (s : State) (n a : Nat) : Option Nat :=
  let k := a % s.cacheSets n * 4
  (List.range 4).find? fun w => match (s.tile n).lines.get none (k + w) with
    | some l => l.line == a
    | none => false

/-- Way w of line `a` is used. -/
def State.cacheTouch (s : State) (n a w : Nat) : State :=
  let set := a % s.cacheSets n
  s.modTile n fun t => { t with plru := t.plru.set 0 set (plruUse (t.plru.get 0 set) w) }

/-- The way that line `a` takes on a fill: one that is free, or the one replaced next. -/
def State.cacheVictim (s : State) (n a : Nat) : Nat :=
  let set := a % s.cacheSets n
  match (List.range 4).find? fun w => ((s.tile n).lines.get none (set * 4 + w)).isNone with
  | some w => w
  | none => plruWay ((s.tile n).plru.get 0 set)

/-- The dirty line that must go back to HBM to make room for line `a`. -/
def State.cacheEvicts (s : State) (n a : Nat) : Option Line :=
  ((s.tile n).lines.get none (a % s.cacheSets n * 4 + s.cacheVictim n a)).filter fun l => l.dirty

/-- Line `a` is filled: the dirty line it replaces is written to HBM by a transaction of its own (R341, R395). -/
def State.cachePut (s : State) (n a : Nat) (bs : List Byte) : State :=
  let w := s.cacheVictim n a
  let s := match s.cacheEvicts n a with
    | some l => (s.sendTxn { agent := n, origin := .evict, addr := 0xFF * 2 ^ 40 + l.line * 64, op := .write [(0, l.data)] }).2
    | none => s
  (s.modTile n fun t => { t with lines := t.lines.set none (a % s.cacheSets n * 4 + w) (some ⟨a, bs, false⟩) }).cacheTouch n a w

/-- The bytes of line `a`, which the cache holds. -/
def State.cacheBytes (s : State) (n a : Nat) : List Byte :=
  match s.cacheFind n a with
  | some w => (((s.tile n).lines.get none (a % s.cacheSets n * 4 + w)).map (·.data)).getD []
  | none => []

/-- Bytes are written into line `a`, which the cache holds; it is then dirty. -/
def State.cacheMerge (s : State) (n a lo : Nat) (bs : List Byte) : State :=
  match s.cacheFind n a with
  | some w =>
    let k := a % s.cacheSets n * 4 + w
    s.modTile n fun t => { t with lines := t.lines.set none k ((t.lines.get none k).map fun (l : Line) =>
      { l with data := mergeBytes l.data (enables lo bs.length) (placeAt lo bs), dirty := true }) }
  | none => s

/-- Line `a` is looked up: a hit or a miss is counted, and a hit is a use. -/
def State.cacheLook (s : State) (n a : Nat) : State :=
  match s.cacheFind n a with
  | some w => (s.countWrap (Reg.TILE n Reg.TILE_CACHE_HIT)).cacheTouch n a w
  | none => s.countWrap (Reg.TILE n Reg.TILE_CACHE_MISS)

/-- Cacheable accesses of tile n stall: maintenance runs, or a handover changes the cache (R343, Table 10-2). -/
def State.cacheBusy (s : State) (n : Nat) : Bool :=
  s.bit (Reg.TILE n Reg.TILE_SP_STAT) 8 ||
    (match (s.tile n).handovers with
     | h :: _ => h.started && (h.olds.contains oCache || ownNew h.word == oCache)
     | [] => false)

/-- Is a line of the cache of tile n dirty. -/
def State.cacheDirty (s : State) (n : Nat) : Bool :=
  (s.tile n).lines.any fun p => (p.2.map fun (l : Line) => l.dirty).getD false

/-- Dirty lines of tile n cannot go back now: no tag is to be had (R399), or the HBM's clock stands still. -/
def State.cacheStuck (s : State) (n : Nat) : Bool := s.cacheDirty n && (!s.mayIssue n || s.life.refLost)

/-- A fill or an eviction of the cache of tile n is outstanding. -/
def State.cacheWaits (s : State) (n : Nat) : Bool :=
  s.tagList.any fun p => p.2.agent == n && (p.2.origin == .fill || p.2.origin == .evict)

/-- A line of a cache that is written back as a whole goes to HBM; its tag has been taken and released by the time the
operation ends (log 69). -/
def State.lineBack (s : State) (l : Line) : State :=
  if l.dirty then (s.hbmWrite (l.line * 64) [(0, l.data)]).2 else s

/-- Every dirty line is written back and stays valid. -/
def State.cacheWbAll (s : State) (n : Nat) : State :=
  let s := (s.tile n).lines.foldl (fun s p => match p.2 with | some l => s.lineBack l | none => s) s
  s.modTile n fun t => { t with lines := t.lines.map fun (p : Nat × Option Line) =>
    (p.1, p.2.map fun (l : Line) => { l with dirty := false }) }

/-- Every line is invalidated; dirty data is discarded. -/
def State.cacheInvAll (s : State) (n : Nat) : State := s.modTile n fun t => { t with lines := [], plru := [] }

/-- TILE_CACHE_CTRL written: WB, INV or both start; CACHE_BUSY is 1 until they end (R343). -/
def State.cacheCtrl (s : State) (n : Nat) (v : Word) : State :=
  if !v.getLsbD 0 && !v.getLsbD 1 then s
  else
    (s.modTile n fun t => { t with maint := (t.maint.1 || v.getLsbD 0, t.maint.2 || v.getLsbD 1) }).setBit
      (Reg.TILE n Reg.TILE_SP_STAT) 8 true

/-- The maintenance ends, once every dirty line can go back. -/
def State.cacheMaintEnd (s : State) (n : Nat) : State :=
  let m := (s.tile n).maint
  if m.1 && s.cacheStuck n then s
  else
  let s := if m.1 then s.cacheWbAll n else s
  let s := if m.2 then s.cacheInvAll n else s
  (s.modTile n fun t => { t with maint := (false, false) }).setBit (Reg.TILE n Reg.TILE_SP_STAT) 8 false

/-! ### Configuration of the scratchpad (R332 to R334, R355) -/

/-- Event 0x2031: a write of a scratchpad configuration register is discarded. -/
def State.configDiscard (s : State) (n rel : Nat) (v : Word) : State := s.raise 0x2031 n (v.toNat + 2 ^ 32 * rel)

/-- Would the owner map after a handover be legal: the CACHE banks form none, 15, 14 to 15 or 12 to 15 (R334). -/
def State.cacheLegal (s : State) (n mask owner : Nat) : Bool :=
  let c := (List.range 16).filter fun b => (if mask.testBit b then owner else s.owner n b) == oCache
  c == [] || c == [15] || c == [14, 15] || c == [12, 13, 14, 15]

/-- A write of TILE_OWNER takes effect (R332, R334): it is discarded where R334 says so, and starts its handover
otherwise.  No other handover is in progress. -/
def State.ownerWrite (s : State) (n : Nat) (v : Word) : State :=
  let mask := ownMask v
  let o := ownNew v
  if mask = 0 || decide (6 ≤ o) || !s.cacheLegal n mask o then s.configDiscard n Reg.TILE_OWNER v
  else
    let olds := (((List.range 16).filter fun b => mask.testBit b).map fun b => s.owner n b).filter fun p => p != o
    let skids := ((List.range 8).filter fun q => (s.skq n q).started.isSome).map fun q => (q, s.skDone n q)
    (s.wr (Reg.TILE n Reg.TILE_OWNER) (v &&& 0x7FFFF)).modTile n fun t => { t with handovers :=
      [{ word := v, started := true, olds := olds, seq := t.issue, ord := s.txnOrd, skids := skids }] }

/-- A write of TILE_OWNER waits: a handover is in progress, or an earlier such write waits (R332). -/
def State.ownerBusy (s : State) (n : Nat) : Bool :=
  !(s.tile n).handovers.isEmpty || (s.tile n).regQ.any fun w => w.rel == Reg.TILE_OWNER && w.write.isSome

/-- An access joins those that wait at the TILE block. -/
def State.regHold (s : State) (n : Nat) (w : RegAcc) : State := s.modTile n fun t => { t with regQ := t.regQ ++ [w] }

/-- The TILE block of tile n is reset while accesses wait at it (R95): the writes have no effect, and the reads are refused
with REASON 3; a core that waits for one takes 0x06. -/
def State.regCut (s : State) (n : Nat) : State :=
  let q := (s.tile n).regQ
  let s := s.modTile n fun t => { t with regQ := [], heldWrites := [] }
  (q.filter fun w => w.write.isNone).foldl (fun s w =>
    let s := s.regRefused w.agent.index (Reg.TILE n w.rel) false 3 w.bit.isSome
    match w.load, w.agent.coreId with
    | some (g, _), some c =>
      if (s.core c).wait = .reg then
        (s.modCore c fun x => { x with wait := .none }).precise c 0x06 (BitVec.ofNat 64 g)
      else s
    | _, _ => s) s

/-- The register loads of an agent whose core is reset are no longer waited for; its writes go on. -/
def State.regForget (s : State) (a : Agent) : State :=
  s.tiles.foldl (fun s p =>
    if p.2.regQ.any fun w => w.agent == a && w.load.isSome then
      s.modTile p.1 fun t => { t with regQ := t.regQ.filter fun w => !(w.agent == a && w.load.isSome) }
    else s) s

/-- Is the handover in progress on tile n drained (Table 10-3). -/
def State.handoverDrained (s : State) (n : Nat) (h : Handover) : Bool :=
  let t := s.tile n
  h.olds.all fun o =>
    if o = oSeq then
      t.spop.isNone && !(s.tagList.any fun p =>
        p.2.agent == n && (p.2.origin == .store || p.2.origin == .load) && !p.2.orphan && decide (p.2.ord < h.ord) &&
          p.2.st != .held)
    else if o = oFeed then (t.feeder ++ t.loads).all fun p => decide (h.seq ≤ p.seq)
    else if o = oBuck then (t.bucker.all fun p => decide (h.seq ≤ p.seq)) && t.chipper.all fun p => decide (h.seq ≤ p.seq)
    else if o = oSkid then h.skids.all fun p => s.skDone n p.1 != p.2 || (s.skq n p.1).started.isNone
    else true

/-- A full/empty waiter is refused with a cause: the own sequencer and Skidder at once, others by response. -/
def State.refuseWaiter (s : State) (n : Fin 144) (wt : Waiter) (cause : Nat) : State :=
  let s := s.modTile n fun t => { t with waiters := t.waiters.erase wt }
  match wt.tag with
  | some tg => s.answer tg (.refused cause)
  | none =>
    match wt.origin with
    | .skid q => s.skFail n q cause (s.skq n q).at'
    | _ =>
      match (s.core (.tile n)).wait with
      | .fe addr _ _ _ _ _ =>
        (s.modCore (.tile n) fun x => { x with wait := .none }).precise (.tile n) cause (BitVec.ofNat 64 addr)
      | _ => s

/-- A drained handover completes (Table 10-2): gather-buffer entries go back, a change of the CACHE set writes back and
invalidates the cache, the map's copies are written, and waiters on slots that no longer take tags are refused. -/
def State.handoverEnd (s : State) (n : Fin 144) : State :=
  match (s.tile n).handovers with
  | [] => s
  | h :: rest =>
    let mask := ownMask h.word
    let o := ownNew h.word
    let chg := (List.range 16).filter fun b => mask.testBit b && s.owner n b != o
    let cache := chg.any fun b => s.owner n b == oCache || o == oCache
    if !h.started || !s.handoverDrained n h || (cache && (s.cacheStuck n || s.cacheWaits n)) then s
    else
      let s := s.gbFlushBanks n (chg.foldl (fun m b => m + 2 ^ b) 0)
      let s := if cache then (s.cacheWbAll n).cacheInvAll n else s
      let s := chg.foldl (fun s b =>
        s.setF (Reg.TILE n (Reg.TILE_OWNER_MAP0 + 4 * (b / 8))) (4 * (b % 8) + 2) (4 * (b % 8)) o) s
      let s := { s with votes := s.votes.clear (4 * Reg.TILE n Reg.TILE_OWNER_MAP0) 32 }
      let s := s.modTile n fun t => { t with handovers := rest }
      let out := (s.tile n).waiters.filter fun w => !tagAdmits (s.ownerOf n w.word)
      out.foldl (fun s w => (s.refuseWord n w.word rqTag).refuseWaiter n w 0x07) s

/-- TILE_STRIPEi written while the tile is idle (R355): discarded with event 0x2031 where its geometry is invalid or it
would overlap another enabled stripe.  `old` is the register before. -/
def State.stripeSet (s : State) (n i : Nat) (v : Word) : State :=
  let k := fld v 6 4
  let f := fld v 3 0
  let bad := decide (5 ≤ k) || decide (f % 2 ^ k ≠ 0)
  let clash := v.getLsbD 7 && (List.range 4).any fun j =>
    j != i && match s.stripe n j with
      | some (g, m) => decide (f < g + m ∧ g < f + 2 ^ k)
      | none => false
  if bad || clash then s.configDiscard n (Reg.TILE_STRIPE i) v else s.wr (Reg.TILE n (Reg.TILE_STRIPE i)) (v &&& 0xFF)

/-- TILE IDLE (chapter 10, Registers). -/
def State.tileIdle (s : State) (n : Nat) : Bool :=
  let t := s.tile n
  (match t.core.task with | .idle | .halted | .stopped => true | _ => false) && t.feeder.isEmpty && t.loads.isEmpty &&
    t.bucker.isEmpty && t.chipper.isEmpty && s.skIdle n && t.handovers.isEmpty

/-- The registers whose writes a gated tile holds (R527). -/
def heldRel (rel : Nat) : Bool :=
  rel == Reg.TILE_OWNER || rel == Reg.TILE_CACHE_CTRL || decide (Reg.TILE_STRIPE 0 ≤ rel ∧ rel ≤ Reg.TILE_STRIPE 3)

/-- A write of register `rel` of the TILE block, TILE_OWNER, a stripe or TILE_CACHE_CTRL, takes effect for an agent; a
TILE_OWNER write waits while another handover is in progress (R332). -/
def State.configWrite (s : State) (a : Agent) (n rel : Nat) (v : Word) : State :=
  if rel = Reg.TILE_OWNER then
    if s.ownerBusy n then s.regHold n { agent := a, rel := rel, write := some v } else s.ownerWrite n v
  else if rel = Reg.TILE_CACHE_CTRL then s.cacheCtrl n v
  else s.stripeSet n ((rel - Reg.TILE_STRIPE 0) / 4) v

/-- A write that a gated tile has held is performed after the wake (R526, R527): an alias write as one read-modify-write of
the register as it now stands (R75), a stripe as judged when it reached the block (R76), and a GO. -/
def State.heldWrite (s : State) (n : Fin 144) (w : RegAcc) : State :=
  let v := w.write.getD 0
  let word := match w.bit with
    | none => v
    | some b => setFld (s.rd (Reg.TILE n w.rel)) b b v.toNat
  if w.rel = Reg.TILE_TASK_CTRL then s.taskGo n (v.getLsbD 1) else s.configWrite w.agent n w.rel word

/-! ### Scrubbing (R348, R345) -/

/-- Cells of words of tile n flip: one bit of a lane makes a correctable error, and of a lane already in error, or two
bits, an uncorrectable one; poison stays poison. -/
def WMark.hit (m : WMark) (h : CellHit) : WMark :=
  if m.poison then m
  else
    let bad := h.twos ||| (m.ones &&& h.ones)
    { m with ones := (m.ones ||| h.ones) &&& ~~~(m.ones &&& h.ones), ue := m.ue || bad != 0, bad := m.bad ||| bad }

/-- The scrubber's next word: the first at or after `w`, in bank order, of a bank that CACHE does not own. -/
def State.scrubWord (s : State) (n w : Nat) : Option Nat :=
  let b0 := w / 1024
  match ((List.range 17).map fun i => (b0 + i) % 16).find? fun b => s.owner n b != oCache with
  | none => none
  | some b => if b = b0 then some (w % 16384) else some (b * 1024)

/-- The scrubber of tile n reads its next word: correctable errors are corrected with the tag, a fresh uncorrectable word
is poisoned with event 0x2050 (R348, R611, R615). -/
def State.spScrub (s : State) (n : Nat) (hits : List CellHit) : State :=
  let s := hits.foldl (fun s h =>
    (s.setMark n (h.word % 16384) ((s.wmark n (h.word % 16384)).hit h)).upsetTag n (h.word % 16384) h.tags) s
  if !s.bit (Reg.TILE n Reg.TILE_SCRUB_CFG) 16 || !s.reachable n || s.bit (Reg.TILE n Reg.TILE_SP_STAT) 9 then s
  else
    match s.scrubWord n (s.tile n).scrubPtr with
    | none => s
    | some w =>
      let m := s.wmark n w
      let s := s.fixTag n w
      let s :=
        if m.poison then s
        else if m.ue then
          let stripe := match s.stripeOf n (w / 1024) with
            | some (i, _, _) => i
            | none => 4
          (s.poisonFresh n w true).raise 0x2050 n (s.spOffset n w + 2 ^ 20 * (w / 1024) + 2 ^ 24 * s.ownerOf n w +
            2 ^ 27 * stripe + 2 ^ 30 * b2n (s.bit (Reg.TILE n Reg.TILE_RESIDENT) (w / 1024)))
        else s.correctLanes n w true
      s.modTile n fun t => { t with scrubPtr := (w + 1) % 16384 }

/-! ### Initialisation, gating, wake (R357, R525 to R527) -/

/-- Is bank b of tile n resident. -/
def State.bankResident (s : State) (n b : Nat) : Bool := s.bit (Reg.TILE n Reg.TILE_RESIDENT) b
/-- Is macro m of tile n resident. -/
def State.macroResident (s : State) (n m : Nat) : Bool := s.bit (Reg.TILE n Reg.TILE_RESIDENT) (16 + m)

/-- A bank holds zeros and empty tags, with no error. -/
def State.zeroBank (s : State) (n b : Nat) : State :=
  { s with spad := s.spad.clear (n * 1048576 + b * 65536) 65536, spMark := s.spMark.clear (n * 16384 + b * 1024) 1024,
           spTag := s.spTag.clear (n * 16384 + b * 1024) 1024 }

/-- Every bank that is not resident. -/
def State.zeroBanks (s : State) (n : Nat) : State :=
  (List.range 16).foldl (fun s b => if s.bankResident n b then s else s.zeroBank n b) s

/-- Set INIT_BUSY. -/
def State.setInit (s : State) (n : Nat) (b : Bool) : State := s.setBit (Reg.TILE n Reg.TILE_SP_STAT) 9 b

/-- The initialisation of tile n ends (R357). -/
def State.spInit (s : State) (n : Nat) : State := if s.initBusy n then (s.zeroBanks n).setInit n false else s

/-- Set the PWR_TGATED bit of tile n. -/
def State.setGated (s : State) (n : Nat) (b : Bool) : State := s.setBit (Reg.PWR_TGATED (n / 32)) (n % 32) b

/-- May tile n be gated (R525): IDLE or HALTED in a quadrant at an operating point, under one of the conditions. -/
def State.gateWanted (s : State) (n : Nat) : Bool :=
  let x := (s.tile n).core
  let hint := decide (s.getF (Reg.PWR_PHASE (x.phase.toNat % 16)) 5 4 = 1)
  s.bit (Reg.PWR_TGATE (n / 32)) (n % 32) || (x.task == .halted && hint) || (x.task == .idle && s.bit Reg.PWR_CTRL 5)

/-- Can tile n be gated at all: IDLE or HALTED, with nothing at work, in a running quadrant, not gated yet. -/
def State.gateable (s : State) (n : Nat) : Bool :=
  let t := s.tile n
  (t.core.task == .idle || t.core.task == .halted) && s.quadRuns n && !s.gated n && !t.waking && s.tileIdle n &&
    t.spop.isNone && !s.cacheStuck n

/-- Tile n is gated (R527, Table 10-8): its waiters are refused with UNREACHABLE, gather buffer and cache are written
back, and banks that are not resident lose their contents. -/
def State.gateTile (s : State) (n : Fin 144) : State :=
  let s := (s.tile n).waiters.foldl (fun s w => s.refuseWaiter n w 0x09) s
  let s := ((s.gbFlushBanks n 0xFFFF).cacheWbAll n).cacheInvAll n
  (s.zeroBanks n).setGated n true

/-- A gated tile starts to wake (R526). -/
def State.wakeTile (s : State) (n : Nat) : State :=
  if s.gated n && s.quadRuns n && !(s.tile n).waking then (s.modTile n fun t => { t with waking := true }).setInit n true
  else s

/-- The wake and the initialisation of tile n end: held writes are performed in order of arrival, then its GO (R526). -/
def State.wakeEnd (s : State) (n : Fin 144) : State :=
  let t := s.tile n
  if !t.waking then s
  else
    let s := ((s.spInit n).setGated n false).modTile n fun t => { t with waking := false, heldWrites := [], idleSince := s.now }
    let s := { s with cap := { s.cap with gated := s.cap.gated.filter (· != n.val) } }
    let (gos, ws) := t.heldWrites.partition fun w => w.rel == Reg.TILE_TASK_CTRL
    (ws ++ gos).foldl (fun s w => s.heldWrite n w) s

/-! ### Reset of a tile; loss and retention of a quadrant (R133, R356, R405, R406, R55, R252, R254, R282) -/

/-- Tile clock cycles of tile n's quadrant. -/
def State.tclkOf (s : State) (n : Nat) : Nat := s.tclk.get 0 (quadOf n)

/-- A tile reset: registers, core and engines at reset, owners and stripes reset, gather buffer and cache lost, tags
orphaned, accesses that wait at the TILE block cut off (R95); with `keepMarks` TILE_RESIDENT survives. -/
def State.tileReset (s : State) (n : Nat) (keepMarks : Bool := false) : State :=
  let s := s.regCut n
  let s := if h : n < 144 then s.regForget (.tile ⟨n, h⟩) else s
  let res := s.rd (Reg.TILE n Reg.TILE_RESIDENT)
  let busy := s.initBusy n
  let w := (s.tile n).waking
  let kept := (s.tile n).waiters.filter fun x => x.agent != n
  let s := (s.withdraw n).orphanTags n
  let s := (s.resetRange (Reg.TILE n 0) 0x1000).freshLimits tileLimited n
  let s := if keepMarks then s.wr (Reg.TILE n Reg.TILE_RESIDENT) res else s
  let s := if busy then s.setInit n true else s
  s.setTile n { core := { cycle0 := s.tclkOf n }, waiters := kept, waking := w, idleSince := s.now }

/-- The tiles of quadrant q. -/
def quadTiles (q : Nat) : List Nat := (List.range 144).filter fun n => quadOf n == q

/-- The contents of a tile's scratchpad and macros are lost. -/
def State.loseTile (s : State) (n : Nat) : State :=
  let s := (List.range 16).foldl (fun s b => s.zeroBank n b) s
  let s := (List.range 16).foldl (fun s m => s.unrecord n m 0 32) s
  { s with mrow := s.mrow.clear (n * 65536) 65536, mflip := s.mflip.clear (n * 65536) 65536 }

/-- The cap loop and the power manager forget a tile that is off. -/
def State.ungate (s : State) (n : Nat) : State :=
  ({ s with cap := { s.cap with gated := s.cap.gated.filter (· != n), held := s.cap.held.filter (· != n) } }).setGated n false

/-- Every waiter at tile n is refused with UNREACHABLE; those of its own agents go with it. -/
def State.dropWaiters (s : State) (n : Nat) : State :=
  let ws := (s.tile n).waiters
  let s := s.modTile n fun t => { t with waiters := [] }
  ws.foldl (fun s w => match w.tag with | some tg => s.answer tg (.refused 0x09) | none => s) s

/-- A quadrant's rails are removed (R55, R406, R758): every tile is reset and its contents are lost. -/
def State.quadLost (s : State) (q : Nat) : State :=
  (quadTiles q).foldl (fun s n => ((((s.dropWaiters n).tileReset n).loseTile n).ungate n).setInit n true)
    (s.freshLimits [0x5040] q)

/-- A quadrant enters retention (R254, Table 10-8, Table 18-4): gather buffers and caches go back, resident banks and
macros keep their contents, the rest is lost and each tile is reset but for its resident marks. -/
def State.quadRetain (s : State) (q : Nat) : State :=
  (quadTiles q).foldl (fun s n =>
    let s := ((s.gbFlushBanks n 0xFFFF).cacheWbAll n).cacheInvAll n
    let s := s.zeroBanks n
    let s := (List.range 16).foldl (fun s m => if s.macroResident n m then s else s.unrecord n m 0 32) s
    (((s.dropWaiters n).tileReset n true).ungate n).setInit n true) s

end Sys2Proof.Machine
end

