-- ==== Sys2Proof/Machine/Power.lean ====
section
/-! DEFINITION. Power within a chip (chapter 16): operating points, the estimator and its calibration, the cap loop,
fixed-frequency mode, quadrant retention and gating, wait fractions, droop, sensors, bands and trips. -/

namespace Sys2Proof.Machine
open Sys2Proof

/-- A value in a field of `w` bits; one that does not fit is not stated by the spec, and free. -/
def State.fit (s : State) (w : Nat) (x : Int) : Nat × State :=
  if 0 ≤ x ∧ x < (2 ^ w : Nat) then (x.toNat, s) else let (d, s) := s.draw w; (d.toNat, s)

/-! ### Points and quadrants (R517 to R520) -/

/-- Quadrant q beyond its registers. -/
def State.quad (s : State) (q : Nat) : Quad := s.quads.get {} q
def State.modQuad (s : State) (q : Nat) (f : Quad → Quad) : State :=
  { s with quads := s.quads.set {} q (f (s.quads.get {} q)) }

/-- FREQ, VOLT and LEAK in force of point k. -/
def State.point (s : State) (k : Nat) : Nat × Nat × Nat :=
  let w := s.inForce (Reg.PWR_OP k)
  (fld w 5 0, fld w 15 8, fld w 27 16)

/-- OP_NOW, OP_REQ, CEIL_CAP, CEIL_THERM and QWAIT of quadrant q. -/
def State.opNow (s : State) (q : Nat) : Nat := s.getF (Reg.PWR_Q_STAT q) 7 4
def State.opReq (s : State) (q : Nat) : Nat := s.getF (Reg.PWR_Q_STAT q) 11 8
def State.ceilCap (s : State) (q : Nat) : Nat := s.getF (Reg.PWR_Q_STAT q) 15 12
def State.ceilTherm (s : State) (q : Nat) : Nat := s.getF (Reg.PWR_Q_STAT q) 19 16
def State.qwait (s : State) (q : Nat) : Nat := s.getF (Reg.PWR_Q_STAT q) 31 24

/-- Quadrants at an operating point. -/
def State.runQuads (s : State) : List Nat := (List.range 4).filter fun q => s.qstate q == 0

/-- Pending operating point entries at which no quadrant runs come into force (Table 16-9). -/
def State.applyPoints (s : State) : State :=
  (List.range 16).foldl (fun s k =>
    if s.bit (0x020000 + Reg.PEND) k && !(s.runQuads.any fun q => s.opNow q == k) then
      (s.apply (Reg.PWR_OP k)).clearPend 0x020000 (BitVec.ofNat 32 (2 ^ k))
    else s) s

/-- A set-point frame to the regulator of quadrant q: 0b10, the voltage code, even parity over it, 1 (R738). -/
def State.sendSetPoint (s : State) (q code : Nat) : State :=
  s.emit (.setPoint q (BitVec.ofNat 12 (2 ^ 11 + 4 * (code % 256) + 2 * (popc code 8 % 2) + 1)))

/-- The power manager grants quadrant q point p: a change of operating point starts (R519), the voltage first when it
rises, the frequency first when it falls. -/
def State.grantPoint (s : State) (q p : Nat) : State :=
  let old := s.opNow q
  if old = p ∨ (s.quad q).change.isSome ∨ (s.quad q).pllHold then s
  else
    let (f, v, l) := s.point p
    let s := s.setF (Reg.PWR_Q_STAT q) 7 4 p
    let s := s.modQuad q fun (x : Quad) =>
      if old < p then { x with volt := v, leak := l, change := some (0, f, v, l) }
      else { x with leak := l, change := some (2, f, v, l) }
    (if old < p then s.sendSetPoint q v else s).applyPoints

/-- The rail of quadrant q is at its set point: a rise goes on to the PLL, a fall is complete (Table 16-2). -/
def State.railSettled (s : State) (q : Nat) : State :=
  match (s.quad q).change with
  | some (0, r) => s.modQuad q fun (x : Quad) => { x with change := some (1, r) }
  | some (3, _) => s.modQuad q fun (x : Quad) => { x with change := none }
  | _ => s

/-- The PLL of quadrant q has reached its frequency: a rise is complete, a fall goes on to its rail; a hold of the clock
at NCLK / 4 ends (Table 16-2, Table 17-4, R596). -/
def State.pllReached (s : State) (q : Nat) : State :=
  let s := s.setBit Reg.CLK_LOCK q true
  match (s.quad q).change with
  | some (1, f, v, l) => s.modQuad q fun (x : Quad) => { x with freq := f, leak := l, volt := v, change := none, pllHold := false }
  | some (2, f, v, l) =>
    (s.modQuad q fun (x : Quad) => { x with freq := f, volt := v, change := some (3, f, v, l), pllHold := false }).sendSetPoint q v
  | _ => s.modQuad q fun (x : Quad) => { x with pllHold := false }

/-- Quadrant q at OP0 without a change in progress, as it starts and wakes. -/
def State.startPoint (s : State) (q : Nat) : State :=
  let (f, v, l) := s.point 0
  (s.setF (Reg.PWR_Q_STAT q) 7 4 0).modQuad q fun (x : Quad) =>
    { x with freq := f, volt := v, leak := l, change := none, pllHold := false, stretching := false }

/-- Quadrant q is forced to OP0 in hardware: a change in progress is abandoned and its clock runs from NCLK / 4 until its
PLL has relocked (Table 17-4, R596). -/
def State.forcePoint0 (s : State) (q : Nat) : State :=
  let (f, v, l) := s.point 0
  (s.setF (Reg.PWR_Q_STAT q) 7 4 0).modQuad q fun (x : Quad) =>
    { x with leak := l, change := some (2, f, v, l), pllHold := true }

/-- TCLK cycles of quadrant q in 40 ns: none while it is stopped, 16 (NCLK / 4) while its PLL relocks, two thirds while a
droop stretches it (R547). -/
def State.tclkStep (s : State) (q : Nat) : Nat :=
  let f := if (s.quad q).pllHold then 16 else (s.quad q).freq
  if 1 < s.qstate q then 0 else if (s.quad q).stretching then 2 * f / 3 else f

/-! ### Sensors and bands (R549, R550, R557) -/

/-- Quadrant of sensor i = 6 b + a. -/
def sensorQuad (i : Nat) : Nat := (if 3 ≤ i % 6 then 1 else 0) + (if 18 ≤ i then 2 else 0)
/-- The sensors of a quadrant. -/
def quadSensors (q : Nat) : List Nat := (List.range 36).filter fun i => sensorQuad i == q
/-- Temperature of sensor i in 1/16 °C, if it is valid. -/
def State.sensor (s : State) (i : Nat) : Option Int :=
  let w := s.rd (Reg.THERM_SENS i)
  if w.getLsbD 12 then some (sInt 12 (fld w 11 0)) else none
/-- The hottest valid sensor of a quadrant, with its temperature. -/
def State.hottest (s : State) (q : Nat) : Option (Nat × Int) :=
  (quadSensors q).foldl (fun m i =>
    match s.sensor i, m with
    | some t, some (_, u) => if u < t then some (i, t) else m
    | some t, none => some (i, t)
    | none, _ => m) none

/-- Entry temperature of a band in 1/16 °C (Table 16-7). -/
def State.bandEntry (s : State) (b : Nat) : Int :=
  if b = 1 then (16 * s.getF Reg.THERM_CTRL 6 0 : Nat) else if b = 2 then 1680 else 1760
/-- Band of a temperature. -/
def State.bandOf (s : State) (t : Int) : Nat :=
  if s.bandEntry 3 ≤ t then 3 else if s.bandEntry 2 ≤ t then 2 else if s.bandEntry 1 ≤ t then 1 else 0
/-- Thermal ceiling of a band. -/
def bandCeil (b : Nat) : Nat := if b = 0 then 15 else if b = 1 then 9 else if b = 2 then 5 else 0
/-- BAND of quadrant q. -/
def State.band (s : State) (q : Nat) : Nat := s.getF (Reg.THERM_Q q) 17 16

/-- Set a quadrant's band and with it its thermal ceiling. -/
def State.setBand (s : State) (q b : Nat) : State :=
  (s.setF (Reg.THERM_Q q) 17 16 b).setF (Reg.PWR_Q_STAT q) 19 16 (bandCeil b)

/-- A quadrant's band at a cap-loop iteration (R550, R557). -/
def State.bandStep (s : State) (q : Nat) : State :=
  match s.hottest q with
  | none => (s.setBand q 2).modQuad q fun (x : Quad) => { x with cool := none }
  | some (i, t) =>
    let s := (s.setF (Reg.THERM_Q q) 11 0 (t % 4096).toNat).setF (Reg.THERM_Q q) 29 24 i
    let b := s.band q
    let b' := s.bandOf t
    if b < b' then
      ((s.setBand q b').modQuad q fun (x : Quad) => { x with cool := none }).raise (if b' = 1 then 0x5050 else 0x5051) q
        ((t % 65536).toNat + 2 ^ 16 * i + 2 ^ 24 * b2n (b' == 3))
    else if b = 0 then s
    else if s.bandEntry b - 48 < t then s.modQuad q fun (x : Quad) => { x with cool := none }
    else
      match (s.quad q).cool with
      | none => s.modQuad q fun (x : Quad) => { x with cool := some s.now }
      | some t0 =>
        if s.now < t0 + 10000000 then s
        else
          (s.setBand q (b - 1)).modQuad q fun (x : Quad) =>
            { x with cool := if 1 < b ∧ t ≤ s.bandEntry (b - 1) - 48 then some s.now else none }

/-- All sensors of a quadrant have become invalid (R557). -/
def State.allInvalid (s : State) (q : Nat) : State := if (s.hottest q).isNone then s.raise 0x5053 q else s

/-- A conversion of every sensor (R549): its temperature in 1/16 °C, or none; a reading below -40 °C is invalid. -/
def State.convert (s : State) (ts : List (Option (BitVec 12))) : State :=
  (List.range 36).foldl (fun s i =>
    match ts.getD i none with
    | none => s
    | some t =>
      let ok := decide (-640 ≤ t.toInt)
      let was := (s.sensor i).isSome
      let s := s.wr (Reg.THERM_SENS i) (BitVec.ofNat 32 (t.toNat + 4096 * b2n ok))
      if was && !ok then s.allInvalid (sensorQuad i) else s) s

/-- A sensor has produced no conversion for 1 ms (R557). -/
def State.sensorInvalid (s : State) (i : Nat) : State :=
  if (s.sensor i).isSome then (s.setBit (Reg.THERM_SENS i) 12 false).allInvalid (sensorQuad i) else s

/-! ### Quadrant entry and wake (R528, R529, Table 16-4) -/

def qRun : Nat := 0
def qEntering : Nat := 1
def qRetained : Nat := 2
def qGated : Nat := 3
def qWaking : Nat := 4
def qTripped : Nat := 5

/-- QSTATE of quadrant q, and with it the power-good of its rail: the rail is up in RUN and ENTERING (Table 16-4). -/
def State.setQstate (s : State) (q st : Nat) : State :=
  (s.setF (Reg.PWR_Q_STAT q) 2 0 st).setBit Reg.CLK_RAIL (5 + q) (decide (st ≤ 1))

/-- REQ of quadrant q. -/
def State.quadReq (s : State) (q : Nat) : Nat := s.getF (Reg.PWR_Q_CTRL q) 1 0

/-- Is some tile of quadrant q RUNNING or DRAINING. -/
def State.quadBusy (s : State) (q : Nat) : Bool :=
  (quadTiles q).any fun n => match (s.tile n).core.task with | .running | .draining => true | _ => false

/-- Is THERM_TRIP.TRIPq set. -/
def State.tripped (s : State) (q : Nat) : Bool := s.bit Reg.THERM_TRIP q

/-- The lowest quadrant that is off and wanted at REQ 0 starts to wake, unless one wakes already (R529). -/
def State.wakeNext (s : State) : State :=
  if (List.range 4).any fun q => s.qstate q == qWaking then s
  else
    match (List.range 4).find? fun q =>
        s.quadReq q == 0 && (s.qstate q == qRetained || s.qstate q == qGated || s.qstate q == qTripped) && !s.tripped q with
    | some q => (s.setQstate q qWaking).startPoint q
    | none => s

/-- A written REQ of quadrant q (Table 16-4): `old` is the register before; discarded with event 0x5060 while a tile of the
quadrant is RUNNING or DRAINING, and for REQ 3. -/
def State.quadRequest (s : State) (q : Nat) (old : Word) : State :=
  let r := s.quadReq q
  if r = 3 ∨ (r ≠ 0 ∧ s.quadBusy q) then (s.wr (Reg.PWR_Q_CTRL q) old).raise 0x5060 q r
  else if r = 0 then s.wakeNext
  else if s.qstate q = qRun then s.setQstate q qEntering
  else if s.qstate q = qRetained ∧ r = 2 then (s.quadLost q).setQstate q qGated
  else s

/-- A quadrant's entry completes once no handover of its tiles is in progress (Table 16-4, Table 10-8) and, for retention,
their caches can go back: contents are retained or lost.  A REQ of 0 written meanwhile wakes it again. -/
def State.quadEntered (s : State) (q : Nat) : State :=
  if s.qstate q ≠ qEntering ∨ (quadTiles q).any fun n =>
      !(s.tile n).handovers.isEmpty || (s.quadReq q != 2 && s.cacheStuck n) then s
  else
    let s := if s.quadReq q = 2 then (s.quadLost q).setQstate q qGated else (s.quadRetain q).setQstate q qRetained
    s.wakeNext

/-- A waking quadrant reaches RUN at OP0, its banks initialised; the next wake starts, or an entry asked for meanwhile. -/
def State.quadWoken (s : State) (q : Nat) : State :=
  if s.qstate q ≠ qWaking then s
  else
    let s := (quadTiles q).foldl (fun s n => s.spInit n) (s.setQstate q qRun)
    let s := s.modQuad q fun (x : Quad) => { x with waitN := 0, busyN := 0 }
    let s := if s.quadReq q = 0 then s else s.setQstate q qEntering
    s.wakeNext

/-- A sensor reaches 115 °C: its quadrant's rails are removed and everything in it is lost (R552, R55). -/
def State.thermalTrip (s : State) (i : Nat) : State :=
  let q := sensorQuad i
  let s := (s.setBit Reg.THERM_TRIP q true).setF Reg.CLK_RST_CAUSE 7 7 1
  let s := if s.qstate q = qTripped then s else (s.quadLost q).setQstate q qTripped
  (s.modQuad q fun (x : Quad) => { x with change := none, pllHold := false, stretching := false }).wakeNext.raise 0x5052 q i

/-- W1C of THERM_TRIP (R552): a trip clears while every sensor of its quadrant reads below 95 °C, and the quadrant wakes. -/
def State.tripClear (s : State) (v : Word) : State :=
  let s := (List.range 4).foldl (fun s q =>
    let cool := (quadSensors q).all fun i => match s.sensor i with | some t => decide (t < 1520) | none => false
    if v.getLsbD q && cool then s.setBit Reg.THERM_TRIP q false else s) s
  s.wakeNext

/-! ### The estimator and its calibration (R530 to R533, R555, R556) -/

/-- FP32 of hundredths, and back to the nearest hundredth. -/
def f32Cent (x : Int) : Word := f32Div (f32OfInt x) 0x42C80000
def centOfF32 (w : Word) : Int := fpToI32 (f32Mul w 0x42C80000).toNat false

/-- Domain d beyond its registers. -/
def State.dom (s : State) (d : Nat) : Dom := s.doms.get {} d
def State.setDom (s : State) (d : Nat) (x : Dom) : State := { s with doms := s.doms.set {} d x }

/-- STATIC of a domain in 0.01 W (R531): the leakage of a quadrant's point, scaled for its hottest valid sensor. Without a
valid sensor the spec gives no T: the scale is free within its bounds.  A quadrant without supply leaks nothing. -/
def State.staticOf (s : State) (d : Nat) : Nat × State :=
  if d < 4 then
    if 2 ≤ s.qstate d ∧ s.qstate d ≠ qWaking then (0, s)
    else
      let leak := (s.quad d).leak
      match s.hottest d with
      | some (_, t) => (leak * (max 200 (min 1600 (t - 560))).toNat / 800, s)
      | none =>
        let (x, s) := s.draw 11
        (leak * (max 200 (min 1600 x.toNat)) / 800, s)
  else (s.getF (Reg.PWR_STATIC d) 15 0, s)

/-- Raw power of a domain in 0.01 W from its event counts of the last 10 µs (R531). -/
def State.rawPower (s : State) (d : Nat) (ns : List Nat) : Nat × State :=
  let (st, s) := s.staticOf d
  let v := if d < 4 then (s.quad d).volt else 150
  let dyn := (List.range 4).foldl (fun a k => a + s.getF (Reg.PWR_COEF d k) 15 0 * ns.getD k 0) 0
  (st + v * v * dyn / 22500000000, s)

/-- An estimator period (R531, R532): raw and calibrated power of every domain, and the chip total. -/
def State.estimate (s : State) (counts : List (List Nat)) : State :=
  let (tot, s) := (List.range 8).foldl (fun (a : Int × State) d =>
    let (raw, s) := a.2.rawPower d (counts.getD d [])
    let x := s.dom d
    let p := centOfF32 (f32Add (f32Mul x.g (f32Cent raw)) x.o)
    let (r, s) := s.fit 16 raw
    let (e, s) := s.fit 16 p
    let s := (s.wr (Reg.PWR_EST_RAW d) (BitVec.ofNat 32 r)).wr (Reg.PWR_EST d) (BitVec.ofNat 32 e)
    (a.1 + p, s.setDom d { x with rawSum := x.rawSum + raw, rawN := x.rawN + 1 })) ((0 : Int), s)
  { s with cap := { s.cap with totals := (tot :: s.cap.totals).take 10 } }

/-- One interval of a domain's calibrator, from its mean raw estimate e and its measurement m in W (R532). -/
def Dom.calibrate (x : Dom) (a e m : Word) : Dom :=
  let me := f32Add x.me (f32Mul a (f32Sub e x.me))
  let mm := f32Add x.mm (f32Mul a (f32Sub m x.mm))
  let de := f32Sub e me
  let ve := f32Add x.ve (f32Mul a (f32Sub (f32Mul de de) x.ve))
  let cem := f32Add x.cem (f32Mul a (f32Sub (f32Mul de (f32Sub m mm)) x.cem))
  let ge := fun (u v : Word) => !fpLt (fpDec 23 u.toNat) (fpDec 23 v.toNat)
  let q := f32Div cem ve
  let g := if ge ve 0x3E800000 then (if !ge q 0x3F000000 then 0x3F000000 else if ge q 0x40000000 then 0x40000000 else q) else x.g
  { x with me := me, mm := mm, ve := ve, cem := cem, g := g, o := f32Sub mm (f32Mul g me) }

/-- Show a domain's gain and offset. -/
def State.showCal (s : State) (d : Nat) : State :=
  let x := s.dom d
  let g := fpToI32 (f32Mul x.g 0x46800000).toNat false
  let (g, s) := s.fit 16 g
  let (o, s) := s.fit 16 (centOfF32 x.o + 32768)
  (s.wr (Reg.PWR_GAIN d) (BitVec.ofNat 32 g)).wr (Reg.PWR_OFF d) (BitVec.ofNat 32 ((o + 32768) % 65536))

/-- A calibration interval of every domain with its measurement in 0.01 W, if one came (R532, R555, R556). -/
def State.calibrateAll (s : State) (ms : List (Option (BitVec 16))) : State :=
  let a := f32Div 0x3F800000 (f32OfInt (s.getF Reg.PWR_CAL 13 0))
  (List.range 8).foldl (fun s d =>
    let x := s.dom d
    if x.rawN = 0 then s
    else
      let e := f32Div (f32OfInt x.rawSum) (f32OfInt (100 * x.rawN))
      let x0 := { x with rawSum := 0, rawN := 0 }
      match ms.getD d none with
      | none => s.setDom d { x0 with diverge := 0 }
      | some m =>
        let s := s.wr (Reg.PWR_MEAS d) (BitVec.ofNat 32 (m.toNat + 2 ^ 31))
        let est := centOfF32 (f32Add (f32Mul x.g e) x.o)
        let off := decide ((m.toNat : Int) < 4 * (est - m.toNat).natAbs)
        let k := if off then x.diverge + 1 else 0
        let s := (s.setDom d ({ x0 with diverge := k }.calibrate a e (f32Cent m.toNat))).showCal d
        if k = 1000 then
          let (e, s) := s.fit 16 (est / 10)
          s.raise 0x5031 d (e + 2 ^ 16 * (m.toNat / 10))
        else s) s

/-- A domain's measurement has been missing for 10 ms (R555). -/
def State.measMissing (s : State) (d rail : Nat) : State :=
  (s.setBit (Reg.PWR_MEAS d) 31 false).raise 0x5030 d (rail % 256)

/-! ### Consumers (R534, Table 16-6); predicted powers are in units of 10^-5 W -/

/-- The chip total: the mean of the last 10 sums, in 10^-5 W. -/
def State.capTotal (s : State) : Int :=
  match s.cap.totals with
  | [] => 0
  | l => l.foldl (· + ·) 0 * 1000 / (l.length : Int)

/-- PWR_CAP in 10^-5 W. -/
def State.capLimit (s : State) : Int := (s.getF Reg.PWR_CAP 7 0 * 100000 : Nat)

/-- Calibrated estimate of a domain in 10^-5 W, and its dynamic part. -/
def State.estOf (s : State) (d : Nat) : Nat := s.getF (Reg.PWR_EST d) 15 0 * 1000
def State.dynOf (s : State) (d : Nat) : Nat := s.estOf d - (s.staticOf d).1 * 1000

def cCompute : Nat := 0
def cMemory : Nat := 1
def cLinks : Nat := 2

/-- Predicted power of a consumer, and its floor. -/
def State.consPower (s : State) (c : Nat) : Nat :=
  if c = cCompute then s.estOf 0 + s.estOf 1 + s.estOf 2 + s.estOf 3 else if c = cMemory then s.estOf 5 else s.estOf 6
def State.consFloor (s : State) (c : Nat) : Nat := s.getF Reg.PWR_FLOOR (8 * c + 7) (8 * c) * 100000

/-- UP links. -/
def State.upLinks (s : State) : List Nat := (List.range 64).filter fun k => s.lstate k == lkUp

/-- Mirror the cap loop's consumers in PWR_CONS. -/
def State.showCons (s : State) : State :=
  (s.setF Reg.PWR_CONS 5 0 (min 63 s.cap.slept.length)).setF Reg.PWR_CONS 23 16 (min 255 s.cap.gated.length)

/-- The link that a reduction puts to sleep: of the group with the most UP links, never its last. -/
def State.linkToSleep (s : State) : Option Nat :=
  let g := (List.range 256).foldl (fun (m : List Nat) c =>
    let l := (s.upLinks).filter fun k => s.partnerChip k == some c
    if m.length < l.length then l else m) []
  if g.length < 2 then none else g.head?

/-- f V² of a point. -/
def fv2 (p : Nat × Nat × Nat) : Nat := p.1 * p.2.1 * p.2.1

/-- Power that quadrant q changes by when it moves from point a to point b, in 10^-5 W. -/
def State.moveSaving (s : State) (q a b : Nat) : Int :=
  let pa := s.point a
  let pb := s.point b
  let dyn := s.dynOf q
  (dyn : Int) - (dyn * fv2 pb / fv2 pa : Nat) + ((pa.2.2 : Int) - pb.2.2) * 1000

/-- The quadrant with the largest (or smallest) QWAIT of a list, the lowest-numbered on a tie. -/
def State.waitPick (s : State) (largest : Bool) (qs : List Nat) : Option Nat :=
  qs.foldl (fun m q => match m with
    | none => some q
    | some p => if (if largest then s.qwait p < s.qwait q else s.qwait q < s.qwait p) then some q else m) none

/-- The tile that the cap loop gates next (Table 16-6, R525). -/
def State.tileToGate (s : State) : Option Nat :=
  (List.range 144).find? fun n =>
    s.gateable n && decide ((s.tile n).idleSince + 1000 * s.getF Reg.PWR_CTRL 31 16 ≤ s.now)

/-- Gate that tile for the cap loop: the saving, and the state. -/
def State.capGate (s : State) : Option (Int × State) :=
  match s.tileToGate with
  | some n =>
    if h : n < 144 then
      let save : Int := s.estOf (quadOf n) / 36
      let s := s.gateTile ⟨n, h⟩
      some (save, ({ s with cap := { s.cap with gated := s.cap.gated ++ [n] } }).showCons)
    else none
  | none => none

/-- One reduction step of a consumer: its predicted saving and the state.  `used` lists the quadrants that this iteration
has stepped already (R520). -/
def State.reduceStep (s : State) (c : Nat) (used : List Nat) : Option (Int × List Nat × State) :=
  if c = cLinks then
    match s.linkToSleep with
    | some k =>
      let save : Int := s.dynOf 6 / s.upLinks.length
      let s := s.leaveLink k lkSleep
      some (save, used, ({ s with cap := { s.cap with slept := k :: s.cap.slept } }).showCons)
    | none => none
  else if c = cMemory then
    let l := s.getF Reg.PWR_CONS 11 8
    if 12 ≤ l then none
    else
      let s' := (s.setF Reg.PWR_CONS 11 8 (l + 1)).setF (Reg.HBM 0 Reg.HBM_THROTTLE) 3 0 (l + 1)
      some ((s.dynOf 5 / 16 : Nat), used, s'.setF (Reg.HBM 1 Reg.HBM_THROTTLE) 3 0 (l + 1))
  else
    match s.waitPick true (s.runQuads.filter fun q => 0 < s.opNow q ∧ !used.contains q) with
    | some q =>
      let low := min (s.ceilCap q) (s.opNow q) - 1
      some (s.moveSaving q (s.opNow q) low, q :: used, s.setF (Reg.PWR_Q_STAT q) 15 12 low)
    | none =>
      if s.runQuads.all fun q => s.opNow q == 0 then s.capGate.map fun r => (r.1, used, r.2) else none

/-- Reduction steps of one consumer until `need` is covered, its floor is reached or its steps are exhausted (R535): what
was saved, whether a step was taken, and the state. -/
def State.reduceCons (c : Nat) (need : Int) : Nat → Int → List Nat → State → Int × Bool × State
  | 0, save, _, s => (save, false, s)
  | fuel + 1, save, used, s =>
    if need ≤ save ∨ (s.consPower c : Int) - save ≤ s.consFloor c then (save, false, s)
    else
      match s.reduceStep c used with
      | none => (save, false, s)
      | some (x, used, s') =>
        let (t, _, s') := reduceCons c need fuel (save + x) used s'
        (t, true, s')

/-- The consumers by priority, lowest first (PWR_PRIO). -/
def State.prioUp (s : State) : List Nat := [s.getF Reg.PWR_PRIO 5 4, s.getF Reg.PWR_PRIO 3 2, s.getF Reg.PWR_PRIO 1 0]

/-- Is the regulator alert in force, and the OP0 hold of an input loss (chapter 18). -/
def State.alertOn (s : State) : Bool := s.bit Reg.PWR_ALERT 0

/-! ### Fixed-frequency mode (R540 to R544) -/

/-- PWR_FIXED in force. -/
def State.fixed (s : State) : Word := s.inForce Reg.PWR_FIXED
def State.fixedOn (s : State) : Bool := s.fixed.getLsbD 0
def State.fixedOp (s : State) : Nat := fld s.fixed 7 4
def State.fallback (s : State) : Nat := fld s.fixed 11 8
def State.inFallback (s : State) : Bool := s.bit Reg.PWR_FIXED 13

/-- The phase that most RUNNING tiles hold, the lowest on a tie (R543). -/
def State.topPhase (s : State) : Nat :=
  let cnt := fun p => ((List.range 144).filter fun n =>
    (s.tile n).core.task == .running && (s.tile n).core.phase.toNat % 16 == p).length
  (List.range 16).foldl (fun m p => if cnt m < cnt p then p else m) 0

/-- A violation of fixed mode with its cause, at the point given (R542, R543). -/
def State.violation (s : State) (cause p : Nat) : State :=
  let ph := s.topPhase
  let s := ((s.countF Reg.PWR_FIX_VIOL 15 0).setF Reg.PWR_FIX_VIOL 17 16 cause).setF Reg.PWR_FIX_VIOL 23 20 ph
  let s := { s.setBit Reg.PWR_FIXED 13 true with cap := { s.cap with fixPoint := p } }
  s.raise 0x5020 0 (cause + 2 ^ 4 * ph + 2 ^ 8 * p)

/-- Launches that fixed mode held go on (R541). -/
def State.releaseHeld (s : State) : State :=
  let l := s.cap.held
  let s := { s with cap := { s.cap with hold := false, held := [] } }
  l.foldl (fun s n => if h : n < 144 then s.taskGo ⟨n, h⟩ (s.bit (Reg.TILE n Reg.TILE_TASK_CTRL) 1) else s) s

/-- Compute must give way in fixed mode (R541): launches are held, then idle tiles are gated, then all quadrants go to the
fallback point. -/
def State.fixedGiveWay (s : State) (need : Int) (save : Int) : Int × Bool × State :=
  let k := s.cap.fixIter + 1
  let s := { s with cap := { s.cap with fixIter := k, hold := true } }
  if k = 1 then (save, true, s)
  else
    let (t, any, s) := (List.range 144).foldl (fun (a : Int × Bool × State) _ =>
      if need ≤ a.1 then a
      else match a.2.2.capGate with
        | some (x, s) => (a.1 + x, true, s)
        | none => a) (save, false, s)
    if k < 3 then (t, true, s)
    else if s.inFallback then (t, any, s)
    else
      let gain := s.runQuads.foldl (fun (g : Int) q => g + s.moveSaving q (s.opNow q) (min (s.opNow q) s.fallback)) 0
      (t + gain, true, s.violation 0 s.fallback)

/-- PWR_FIXED comes into force at an iteration. -/
def State.applyFixed (s : State) : State :=
  if !s.bit (0x020000 + Reg.PEND) 16 then s
  else
    let was := s.fixedOn
    let s := (s.apply Reg.PWR_FIXED).clearPend 0x020000 0x10000
    if !s.fixedOn then
      ({ s.setBit Reg.PWR_FIXED 13 false with cap := { s.cap with fixIter := 0, ack := false } }).releaseHeld
    else if !was || !s.inFallback then { s with cap := { s.cap with fixPoint := s.fixedOp } }
    else s

/-- A pending ACK is judged at the iteration (R544). -/
def State.fixedAck (s : State) (tMin : Nat) : State :=
  if !s.cap.ack then s
  else
    let s := { s with cap := { s.cap with ack := false } }
    let rise := s.runQuads.foldl (fun (g : Int) q => g - s.moveSaving q (s.opNow q) s.fixedOp) 0
    if s.fixedOn && s.inFallback && decide (s.capTotal + rise ≤ s.capLimit) && decide (s.fixedOp ≤ tMin) && !s.alertOn then
      { s.setBit Reg.PWR_FIXED 13 false with cap := { s.cap with fixPoint := s.fixedOp, fixIter := 0 } }
    else s

/-! ### The iteration (R523, R535 to R537) -/

/-- QWAIT of every quadrant over the last iteration (R546). -/
def State.qwaitStep (s : State) : State :=
  (List.range 4).foldl (fun s q =>
    let x := s.quad q
    let sum := x.waitN + x.busyN
    let (w, s) := s.fit 8 (if sum = 0 then 0 else (256 * x.waitN / sum : Nat))
    (s.setF (Reg.PWR_Q_STAT q) 31 24 w).modQuad q fun (x : Quad) => { x with waitN := 0, busyN := 0 }) s

/-- The requested point of quadrant q (R522). -/
def State.requested (s : State) (q : Nat) : Nat :=
  let ps := ((quadTiles q).filter fun n => match (s.tile n).core.task with | .running | .draining => true | _ => false).map
    fun n => s.getF (Reg.PWR_PHASE ((s.tile n).core.phase.toNat % 16)) 3 0
  match ps with
  | [] => s.getF Reg.PWR_CTRL 3 0
  | _ => ps.foldl max 0

/-- One step is undone on the highest-priority consumer that has one, if the total then still leaves the headroom (R536). -/
def State.restoreStep (s : State) : State :=
  let room := s.capLimit - (s.getF Reg.PWR_HEADROOM 5 0 * 25000 : Nat)
  let l := s.getF Reg.PWR_CONS 11 8
  let low := s.runQuads.filter fun q => s.ceilCap q < 15
  let has := fun c => if c = cLinks then !s.cap.slept.isEmpty else if c = cMemory then decide (0 < l)
    else !s.fixedOn && !low.isEmpty
  match s.prioUp.reverse.find? has with
  | none => s
  | some c =>
    if c = cLinks then
      match s.cap.slept with
      | k :: rest =>
        if room < s.capTotal + (s.dynOf 6 / s.upLinks.length : Nat) then s
        else
          let s := ({ s with cap := { s.cap with slept := rest } }).showCons
          if s.lstate k = lkSleep ∧ !s.bit (Reg.YARDER k Reg.YARDER_CTRL) 2 then s.startTraining k else s
      | [] => s
    else if c = cMemory then
      if room < s.capTotal + (s.dynOf 5 / 16 : Nat) then s
      else
        ((s.setF Reg.PWR_CONS 11 8 (l - 1)).setF (Reg.HBM 0 Reg.HBM_THROTTLE) 3 0 (l - 1)).setF
          (Reg.HBM 1 Reg.HBM_THROTTLE) 3 0 (l - 1)
    else
      match s.waitPick false low with
      | some q =>
        let top := if s.bit Reg.PWR_CTRL 4 then 15 else 11
        let p := max (s.opNow q) (min (min (s.opReq q) (s.ceilTherm q)) (min top (s.ceilCap q + 1)))
        if room < s.capTotal - s.moveSaving q (s.opNow q) p then s
        else s.setF (Reg.PWR_Q_STAT q) 15 12 (s.ceilCap q + 1)
      | none => s

/-- Power gives way, consumer by consumer in ascending priority, until the excess is covered (R535, R537, R541). -/
def State.reduceAll (s : State) : State :=
  let need := s.capTotal - s.capLimit
  let (_, any, s) := s.prioUp.foldl (fun (a : Int × Bool × State) c =>
    if need ≤ a.1 then a
    else
      let s := a.2.2
      let (x, did, s) :=
        if c = cCompute && s.fixedOn then
          (if (s.consPower c : Int) ≤ s.consFloor c then (0, false, s) else s.fixedGiveWay (need - a.1) 0)
        else State.reduceCons c (need - a.1) 300 0 [] s
      (a.1 + x, a.2.1 || did, s)) ((0 : Int), false, s)
  if any || s.bit Reg.PWR_CAP_STAT 0 then s
  else
    (s.setBit Reg.PWR_CAP_STAT 0 true).raise 0x5011 0
      (s.getF Reg.PWR_CAP_STAT 31 16 + 2 ^ 16 * (s.getF Reg.PWR_CAP 7 0 * 10))

/-- The lowest thermal ceiling of the quadrants at an operating point. -/
def State.thermMin (s : State) : Nat := s.runQuads.foldl (fun m q => min m (s.ceilTherm q)) 15

/-- The point that quadrant q is granted (R523, R540). -/
def State.grantOf (s : State) (q : Nat) : Nat :=
  if s.fixedOn then s.cap.fixPoint
  else min (min (s.opReq q) (s.ceilTherm q)) (min (s.ceilCap q) (if s.bit Reg.PWR_CTRL 4 then 15 else 11))

/-- An iteration of the cap loop.  `hold0`: an input loss holds OP0 (Table 18-13).  In fixed mode a thermal ceiling that
falls below PWR_FIXED.OP, or lies below the point in force, is a violation (R542). -/
def State.capIteration (s : State) (hold0 : Bool) : State :=
  let s := s.voteRange 0x020000 0x1000
  let old := s
  let s := s.applyPoints.applyFixed.qwaitStep
  let s := s.runQuads.foldl (fun s q => s.bandStep q) s
  let s := s.runQuads.foldl (fun s q => s.setF (Reg.PWR_Q_STAT q) 11 8 (s.requested q)) s
  let t1 := s.thermMin
  let fell := s.runQuads.any fun q => decide (s.fixedOp ≤ old.ceilTherm q ∧ s.ceilTherm q < s.fixedOp)
  let s := if s.fixedOn && (fell || decide (t1 < s.cap.fixPoint)) then
      s.violation 1 (min (min s.fallback t1) s.cap.fixPoint)
    else s
  let tot := s.capTotal
  let (t, s) := s.fit 16 (tot / 10000)
  let s := s.setF Reg.PWR_CAP_STAT 31 16 t
  let s :=
    if s.capLimit < tot then s.reduceAll
    else
      let s := s.setBit Reg.PWR_CAP_STAT 0 false
      let s := { s with cap := { s.cap with fixIter := 0 } }
      let s := if s.cap.hold then s.releaseHeld else s
      if s.alertOn || hold0 || decide (s.capLimit - (s.getF Reg.PWR_HEADROOM 5 0 * 25000 : Nat) < tot) then s
      else s.restoreStep
  let s := s.fixedAck t1
  if s.alertOn || hold0 then s else s.runQuads.foldl (fun s q => s.grantPoint q (s.grantOf q)) s

/-! ### Register writes of PWR and THERM (R518, R538, R539, R553) -/

/-- Event 0x5002 for a discarded write. -/
def State.rangeDiscard (s : State) (off : Nat) (v : Word) : State := s.raise 0x5002 0 (off + 2 ^ 32 * v.toNat)

/-- Is operating point entry k legal with the value w (R518). -/
def State.pointOk (s : State) (k : Nat) (w : Word) : Bool :=
  let f := fld w 5 0
  let v := fld w 15 8
  let below := if k = 0 then (0, 0) else (s.getF (Reg.PWR_OP (k - 1)) 5 0, s.getF (Reg.PWR_OP (k - 1)) 15 8)
  let above := if k = 15 then (63, 255) else (s.getF (Reg.PWR_OP (k + 1)) 5 0, s.getF (Reg.PWR_OP (k + 1)) 15 8)
  decide (f ≤ s.getF Reg.PWR_FUSE 5 0 ∧ v ≤ s.getF Reg.PWR_FUSE 15 8 ∧ 110 ≤ v ∧ below.1 ≤ f ∧ below.2 ≤ v ∧
    f ≤ above.1 ∧ v ≤ above.2)

/-- Sum of the three floors of a PWR_FLOOR value. -/
def floorSum (w : Word) : Nat := fld w 7 0 + fld w 15 8 + fld w 23 16

/-- A write to PWR or THERM that the rules discard: the state with its event; `nv` is what the register would hold. -/
def State.pwrDiscard (s : State) (off : Nat) (nv v : Word) : Option State :=
  if Reg.PWR_OP 0 ≤ off ∧ off ≤ Reg.PWR_OP 15 then
    let k := (off - Reg.PWR_OP 0) / 4
    if s.pointOk k nv then none else some (s.raise 0x5001 k v.toNat)
  else
    let ok :=
      if off = Reg.PWR_CAP then
        decide (40 ≤ fld nv 7 0 ∧ fld nv 7 0 ≤ min 175 (s.getF Reg.PWR_FUSE 23 16) ∧
          floorSum (s.rd Reg.PWR_FLOOR) ≤ fld nv 7 0)
      else if off = Reg.PWR_FLOOR then
        decide (fld nv 7 0 ≤ 175 ∧ fld nv 15 8 ≤ 175 ∧ fld nv 23 16 ≤ 175 ∧ floorSum nv ≤ s.getF Reg.PWR_CAP 7 0)
      else if off = Reg.PWR_PRIO then
        let l := [fld nv 1 0, fld nv 3 2, fld nv 5 4]
        l.contains 0 && l.contains 1 && l.contains 2
      else if off = Reg.PWR_HEADROOM then decide (1 ≤ fld nv 5 0)
      else if off = Reg.PWR_CAL then decide (10 ≤ fld nv 13 0 ∧ fld nv 13 0 ≤ 10000)
      else if off = Reg.PWR_FIXED then decide (fld nv 7 4 ≤ 11 ∧ fld nv 11 8 ≤ fld nv 7 4)
      else if off = Reg.THERM_DROOP then decide (10 ≤ fld nv 5 0 ∧ fld nv 5 0 ≤ 60)
      else if off = Reg.THERM_CTRL then decide (80 ≤ fld nv 6 0 ∧ fld nv 6 0 ≤ 100)
      else true
    if ok then none else some (s.rangeDiscard off v)

/-- PWR_TWAKE written: the gated tiles that it names wake (R526). -/
def State.twake (s : State) (i : Nat) (v : Word) : State :=
  (bitsSet v.toNat 32).foldl (fun s j => if 32 * i + j < 144 then s.wakeTile (32 * i + j) else s) s

/-! ### Wait fractions, droop (R545, R547, R548) -/

/-- A 10 ms period ends: its wait and busy counts are latched (R545). -/
def State.latchWait (s : State) : State :=
  let s := (List.range 16).foldl (fun s p =>
    (s.wr (Reg.PWR_WAIT p) (BitVec.ofNat 32 (s.phCnt.get 0 (2 * p)))).wr (Reg.PWR_BUSY p)
      (BitVec.ofNat 32 (s.phCnt.get 0 (2 * p + 1)))) s
  { s with phCnt := [] }

/-- Does a waiting instruction count as wait time (R206). -/
def Wait.counts : Wait → Bool
  | .fe .. => true
  | .bar .. => true
  | .waitev .. => true
  | .dmaWait .. => true
  | .yield _ => true
  | _ => false

/-- The wait and busy counts of a tick of 40 ns: each RUNNING tile counts its tile cycles (R545, R546). -/
def State.countWait (s : State) : State :=
  s.tiles.foldl (fun s p =>
    let x := p.2.core
    let k := s.tclkStep (quadOf p.1)
    if x.task ≠ .running ∨ k = 0 ∨ 144 ≤ p.1 then s
    else
      let w := x.wait.counts
      let key := 2 * (x.phase.toNat % 16) + b2n (!w)
      let s := { s with phCnt := s.phCnt.set 0 key (s.phCnt.get 0 key + k) }
      s.modQuad (quadOf p.1) fun (q : Quad) =>
        if w then { q with waitN := q.waitN + k } else { q with busyN := q.busyN + k }) s

/-- The rail of quadrant q falls more than DROOP_MV below its set point: its clock stretches (R547, R548). -/
def State.droop (s : State) (q : Nat) : State :=
  if (s.quad q).stretching || decide (1 < s.qstate q) then s
  else
    ((s.modQuad q fun (x : Quad) => { x with stretching := true }).count (Reg.THERM_DROOP_CNT q)).raiseLim 0x5040 q
      (fun k => k % 2 ^ 32) 1000000000

/-- The stretch ends after `k` stretched cycles, at least 16 (R547, R548). -/
def State.droopDone (s : State) (q k : Nat) : State :=
  if (s.quad q).stretching then
    (s.modQuad q fun (x : Quad) => { x with stretching := false }).countBy (Reg.THERM_STRETCH q) (max 16 k)
  else s

end Sys2Proof.Machine
end

