-- ==== Sys2Proof/Machine/Rack.lean ====
section
/-! DEFINITION. Power across tray and rack (chapter 17): reports and grants of this chip, the Cruiser's ledger and cycle,
and the regulator alert. -/

namespace Sys2Proof.Machine
open Sys2Proof

/-! ### This chip's part (R561, R566, R568, R569) -/

/-- The chip's minimum cap (R561). -/
def State.minCap (s : State) : Nat := max 40 ((floorSum (s.rd Reg.PWR_FLOOR) + 1) / 2 * 2)

/-- Does the chip run the Cruiser (R563). -/
def State.isCruiser (s : State) : Bool := s.chipId == 0 && s.slotOk

/-- Put `n` bytes of x at offset o of a data word. -/
def putLe (b : List Byte) (o n x : Nat) : List Byte := b.take o ++ leBytes n x ++ b.drop (o + n)

/-- A data word of zeros with fields of (offset, bytes, value). -/
def dataWord (fs : List (Nat × Nat × Nat)) : List Byte :=
  fs.foldl (fun b f => putLe b f.1 f.2.1 f.2.2) (List.replicate 64 0)

/-- A power message to chip c: over the Yarder, or to this chip itself. -/
def State.sendPower (s : State) (c type : Nat) (data : List Byte) : State :=
  if c = s.chipId then { s with rack := { s.rack with loop := s.rack.loop ++ [(type, data)] } }
  else s.sendCtrl c type 0 0 0 data

/-- A wait fraction in units of 1 / 2^w; all ones when there was no cycle.  A fraction of 1 does not fit, and is free. -/
def State.waitFrac (s : State) (w wait busy : Nat) : Nat × State :=
  if wait + busy = 0 then (2 ^ w - 1, s) else s.fit w ((2 ^ w * wait / (wait + busy) : Nat) : Int)

/-- The data word of this chip's REPORT at the end of a period (Table 17-1). -/
def State.reportWord (s : State) : List Byte × State :=
  let ws := (List.range 16).map fun p => ((s.rd (Reg.PWR_WAIT p)).toNat, (s.rd (Reg.PWR_BUSY p)).toNat)
  let (wf, s) := s.waitFrac 16 (ws.foldl (fun a x => a + x.1) 0) (ws.foldl (fun a x => a + x.2) 0)
  let (wps, s) := ws.foldl (fun (a : List Nat × State) x => let (p, s) := a.2.waitFrac 8 x.1 x.2; (a.1 ++ [p], s)) ([], s)
  let flags := b2n (s.bit Reg.PWR_RACK 0) + 2 * b2n (s.bit Reg.PWR_CAP_STAT 0) + 4 * b2n s.alertOn + 8 * b2n s.fixedOn +
    16 * b2n s.rack.envCut + 32 * b2n (s.pos == 0)
  (dataWord ([(0, 1, 1), (1, 1, s.chipId), (2, 1, flags), (4, 4, s.timeNow / 10000000),
    (8, 2, s.getF Reg.PWR_CAP 7 0), (10, 2, s.minCap), (12, 2, if s.rack.totN = 0 then 0 else s.rack.totSum / s.rack.totN),
    (14, 2, wf)] ++ (wps.mapIdx fun i w => (16 + i, 1, w)) ++
    [(32, 2, if s.pos = 0 then s.getF Reg.PWR_TRAYENV 15 0 - 100 else 0), (34, 2, s.upLinks.length),
     (36, 4, (s.rd Reg.PWR_GSEQ).toNat)]), s)

/-- Write PWR_CAP as the power manager does. -/
def State.setCap (s : State) (w : Nat) : State := s.wrCopies Reg.PWR_CAP (setFld (s.rd Reg.PWR_CAP) 7 0 w)

/-- A GRANT_ACK of this chip. -/
def State.sendAck (s : State) (gseq cap : Nat) (refused : Bool) : State :=
  s.sendPower 0 0x42 (dataWord [(0, 1, 1), (1, 1, s.chipId), (2, 1, b2n (s.bit Reg.PWR_CAP_STAT 0) + 2 * b2n refused),
    (4, 4, gseq), (8, 2, cap)])

/-- What the tray management bus says of an increase (R569): on a chip at positions 1 to 3 the answer of chip 0's island, on
chip 0 the sum of the caps of the tray's other chips as its island reads them now. -/
structure BusSays where
  fits : Bool
  others : Nat

/-- A GRANT reaches this chip (R23, R568, R569). -/
def State.grantIn (s : State) (d : List Byte) (bus : BusSays) : State :=
  let g := leAt d 4 4
  let cap := leAt d 8 2
  let newer := decide (0 < (BitVec.ofNat 32 g - s.rd Reg.PWR_GSEQ).toInt)
  if !s.slotOk || leAt d 0 1 ≠ 1 || leAt d 1 1 ≠ s.chipId || !newer then s
  else
    let s := s.setF Reg.PWR_RACK 31 16 0
    let take := fun (s : State) =>
      (((s.setCap cap).wr Reg.PWR_GRANT (BitVec.ofNat 32 (cap % 256))).wr Reg.PWR_GSEQ (BitVec.ofNat 32 g)).setBit
        Reg.PWR_RACK 0 true
    if (leAt d 2 1).testBit 0 then
      let s := take s
      { s with rack := { s.rack with ackDue := s.rack.ackDue ++ [g] } }
    else
      let s := if s.pos = 0 then { s with rack := { s.rack with others := bus.others } } else s
      let ok := if s.pos = 0 then decide (bus.others + cap + 100 ≤ s.getF Reg.PWR_TRAYENV 15 0) else bus.fits
      if ok then (take s).sendAck g cap false else s.sendAck g (s.getF Reg.PWR_CAP 7 0) true

/-! ### The Cruiser (R563 to R572) -/

/-- Chip c of the ledger. -/
def State.cru (s : State) (c : Nat) : CruChip := s.rack.chips.get {} c
def State.setCru (s : State) (c : Nat) (x : CruChip) : State :=
  { s with rack := { s.rack with chips := s.rack.chips.set {} c x } }

/-- Joined chips. -/
def State.joined (s : State) : List Nat := (List.range 64).filter fun c => (s.cru c).joined

/-- Granted caps of a tray's joined chips. -/
def State.trayCaps (s : State) (t : Nat) : Nat :=
  ((s.joined.filter fun c => c / 4 == t).map fun c => (s.cru c).cap).foldl (· + ·) 0

/-- The ledger sum L (R564). -/
def State.ledger (s : State) : Nat :=
  (List.range 16).foldl (fun a t =>
    a + if s.joined.any fun c => c / 4 == t then 100 + s.trayCaps t else 260) 0

/-- Show L. -/
def State.showLedger (s : State) : State := s.setF Reg.PWR_CRU_LEDGER 15 0 (s.ledger % 65536)

/-- A GRANT to chip c. -/
def State.sendGrant (s : State) (c cap flags : Nat) : State :=
  let g := (s.rack.gseq + 1) % 2 ^ 32
  let s := { s with rack := { s.rack with gseq := g } }
  s.sendPower c 0x41 (dataWord [(0, 1, 1), (1, 1, c), (2, 1, flags), (4, 4, g), (8, 2, cap)])

/-- A decrease to chip c, which awaits its acknowledgement. -/
def State.sendLower (s : State) (c cap : Nat) : State :=
  let s := s.sendGrant c cap 1
  { s with rack := { s.rack with lowers := s.rack.lowers.filter (fun (l : Lower) => l.chip != c) ++ [Lower.mk c s.rack.gseq cap false] } }

/-- An increase of 2 W to chip c: the ledger rises as it is sent. -/
def State.sendRaise (s : State) (c : Nat) : State :=
  let x := s.cru c
  ((s.setCru c { x with cap := x.cap + 2 }).sendGrant c (x.cap + 2) 0).count Reg.PWR_CRU_MOVED

/-- The increases of the pairs are sent once every decrease that is not overdue has been acknowledged (R570, step 6). -/
def State.tryRaise (s : State) : State :=
  if s.rack.lowers.any fun l => !l.late then s
  else
    let rs := s.rack.raises
    (rs.foldl (fun (s : State) r => s.sendRaise r.1) { s with rack := { s.rack with raises := [] } }).showLedger

/-- A REPORT reaches the Cruiser (R570, R581).  Its GSEQ, where later than the Cruiser's own number, is what the next GRANT
counts on from, so that a Cruiser begun anew is heard (R568; DESIGN CHOICE, log 46). -/
def State.reportIn (s : State) (d : List Byte) : State :=
  if !s.isCruiser then s
  else
    let c := leAt d 1 1
    if leAt d 0 1 ≠ 1 ∨ 63 < c then s.raise 0x5107 c (leAt d 0 1)
    else
      let x := s.cru c
      let f := leAt d 2 1
      let s := s.setCru c { x with fresh := true, applied := f.testBit 0, rcap := leAt d 8 2, minCap := leAt d 10 2,
                                   waitF := leAt d 14 2, alert := f.testBit 2 }
      let g := leAt d 36 4
      let s := if 0 < (BitVec.ofNat 32 g - BitVec.ofNat 32 s.rack.gseq).toInt then
          { s with rack := { s.rack with gseq := g } } else s
      if f.testBit 5 then { s with rack := { s.rack with envs := s.rack.envs.set 350 (c / 4) (leAt d 32 2) } } else s

/-- A GRANT_ACK reaches the Cruiser: an acknowledged decrease lowers the ledger (R564, R570). -/
def State.ackIn (s : State) (d : List Byte) : State :=
  if !s.isCruiser || leAt d 0 1 ≠ 1 then s
  else
    match s.rack.lowers.find? fun l => l.chip == leAt d 1 1 && l.gseq == leAt d 4 4 with
    | none => s
    | some l =>
      let x := s.cru l.chip
      let s := { s with rack := { s.rack with lowers := s.rack.lowers.filter (fun (m : Lower) => m != l) } }
      ((s.setCru l.chip { x with cap := min x.cap (leAt d 8 2) }).showLedger).tryRaise

/-- An answer of the tray management bus that no operand gives (log 32). -/
def State.busDraw (s : State) : BusSays × State :=
  let (x, s) := s.draw 11
  (⟨x.getLsbD 0, x.toNat / 2⟩, s)

/-- Messages of this chip to itself are handled in order: `fuel` bounds them. -/
def State.rackLoop : Nat → State → State
  | 0, s => s
  | fuel + 1, s =>
    match s.rack.loop with
    | [] => s
    | (t, d) :: rest =>
      let s := { s with rack := { s.rack with loop := rest } }
      rackLoop fuel (if t = 0x40 then s.reportIn d
        else if t = 0x41 then let (b, s) := s.busDraw; s.grantIn d b
        else s.ackIn d)

/-- A power message of any source is handled. -/
def State.powerMsg (s : State) (type : Nat) (d : List Byte) (bus : BusSays) : State :=
  State.rackLoop 400 (if type = 0x40 then s.reportIn d else if type = 0x41 then s.grantIn d bus else s.ackIn d)

/-- Insert into a list ordered by `before`. -/
def insertBy (before : Nat → Nat → Bool) (c : Nat) : List Nat → List Nat
  | [] => [c]
  | d :: r => if before c d then c :: d :: r else d :: insertBy before c r

/-- Chips ordered by WAITF, highest (or lowest) first, the lower chip ID winning a tie. -/
def State.ranked (s : State) (high : Bool) (cs : List Nat) : List Nat :=
  cs.foldl (fun l c => insertBy (fun a b =>
    if high then decide ((s.cru b).waitF < (s.cru a).waitF) else decide ((s.cru a).waitF < (s.cru b).waitF)) c l) []

/-- ENVELOPE of a tray as the Cruiser takes it (R582). -/
def State.trayEnv (s : State) (t : Nat) : Nat := s.rack.envs.get 350 t

/-- May chip c receive 2 W (R570, step 2). -/
def State.mayReceive (s : State) (c : Nat) : Bool :=
  let x := s.cru c
  x.joined && x.fresh && x.waitF != 0xFFFF && !x.alert && decide (x.cap + 2 ≤ 175) &&
    decide (s.trayCaps (c / 4) + 2 ≤ s.trayEnv (c / 4))

/-- Step 1: join, adopt lower caps.  A chip that reports no GRANT applied, as after its main reset (R583), is joined again. -/
def State.adopt (s : State) : State :=
  (List.range 64).foldl (fun s c =>
    let x := s.cru c
    if !x.fresh then s
    else if !x.joined || !x.applied then (s.setCru c { x with joined := true, cap := x.rcap }).sendGrant c x.rcap 2
    else if x.rcap < x.cap then s.setCru c { x with cap := x.rcap }
    else s) s

/-- Step 3: slack goes to recipients in rank order; what is left of them, and the steps taken. -/
def State.slack (budget moves : Nat) : List Nat → Nat → State → List Nat × Nat × State
  | [], m, s => ([], m, s)
  | c :: rest, m, s =>
    if moves ≤ m ∨ budget < s.ledger + 2 then (c :: rest, m, s)
    else slack budget moves rest (m + 1) (s.sendRaise c)

/-- Step 4: pairs of donors and recipients (donor, recipient). -/
def State.pairs (s : State) (hyst : Nat) : Nat → List Nat → List Nat → List (Nat × Nat)
  | 0, _, _ => []
  | k + 1, d :: ds, r :: rs =>
    if d ≠ r ∧ (s.cru r).waitF + 256 * hyst ≤ (s.cru d).waitF then (d, r) :: s.pairs hyst k ds rs else []
  | _, _, _ => []

/-- A cycle of the Cruiser (R570, R571). -/
def State.cruiserCycle (s : State) : State :=
  if !s.isCruiser then s
  else
    let s := s.setBit Reg.PWR_RACK 1 true
    let s := match s.rack.newBudget with
      | some b => ({ s with rack := { s.rack with newBudget := none } }).setF Reg.PWR_CRU_BUDGET 15 0 b
      | none => s
    let s := s.adopt
    let s := s.rack.lowers.foldl (fun s l => s.sendLower l.chip (min l.cap (s.cru l.chip).cap)) s
    let budget := s.getF Reg.PWR_CRU_BUDGET 15 0
    let moves := s.getF Reg.PWR_CRU_CFG 4 0
    let donors := s.ranked true (s.joined.filter fun c =>
      decide ((s.cru c).minCap + 2 ≤ (s.cru c).cap) && !(s.rack.lowers.any fun l => l.chip == c))
    let s :=
      if budget < s.ledger then
        let k := (s.ledger - budget + 1) / 2
        (donors.take k).foldl (fun s c => s.sendLower c ((s.cru c).cap - 2)) s
      else
        let recips := s.ranked false ((List.range 64).filter s.mayReceive)
        let (recips, m, s) := State.slack budget moves recips 0 s
        let ps := s.pairs (s.getF Reg.PWR_CRU_CFG 15 8) (moves - m) donors recips
        let s := ps.foldl (fun s p => s.sendLower p.1 ((s.cru p.1).cap - 2)) s
        { s with rack := { s.rack with raises := ps.map fun p => (p.2, p.1) } }
    let s := { s with rack := { s.rack with chips := s.rack.chips.map fun (p : Nat × CruChip) =>
      (p.1, { p.2 with fresh := false }) } }
    (State.rackLoop 400 s).showLedger

/-- A decrease of chip c was not acknowledged within 5 ms (R570, step 6). -/
def State.decreaseTimeout (s : State) (c : Nat) : State :=
  match s.rack.lowers.find? fun l => l.chip == c && !l.late with
  | none => s
  | some l =>
    let s := { s with rack := { s.rack with
      lowers := s.rack.lowers.map fun (m : Lower) => if m = l then { m with late := true } else m
      raises := s.rack.raises.filter fun r => r.2 != c } }
    State.rackLoop 400 ((s.raiseLim 0x5104 c (fun _ => l.gseq % 2 ^ 32 + 2 ^ 32 * l.cap) 1000000000).tryRaise)

/-! ### The end of a period and of an iteration (R545, R566) -/

/-- A 10 ms period ends: the counts are latched, the grant is enforced, the minimum cap holds before any GRANT, and the
REPORT goes out (R566, R567). -/
def State.periodEnd (s : State) : State :=
  let s := s.latchWait.setF Reg.PWR_RACK 15 8 s.minCap
  if !s.slotOk then { s with rack := { s.rack with totSum := 0, totN := 0, envCut := false } }
  else
    let cap := s.getF Reg.PWR_CAP 7 0
    let g := s.getF Reg.PWR_GRANT 7 0
    let s :=
      if !s.bit Reg.PWR_RACK 0 then s.setCap s.minCap
      else if g < cap then (s.setCap g).raise 0x5106 0 (cap + 2 ^ 16 * g)
      else s
    let s := s.countF Reg.PWR_RACK 31 16
    let (w, s) := s.reportWord
    let s := { s with rack := { s.rack with totSum := 0, totN := 0, envCut := false } }
    State.rackLoop 400 (s.sendPower 0 0x40 w)

/-- After an iteration of the cap loop: its total counts in the period, and the acknowledgements that are due go out (R569). -/
def State.afterIteration (s : State) : State :=
  let s := { s with rack := { s.rack with totSum := s.rack.totSum + s.getF Reg.PWR_CAP_STAT 31 16, totN := s.rack.totN + 1 } }
  State.rackLoop 400 (s.rack.ackDue.foldl (fun (s : State) g => s.sendAck g (s.getF Reg.PWR_CAP 7 0) false)
    { s with rack := { s.rack with ackDue := [] } })

/-! ### The regulator alert (R576 to R578) -/

/-- VRALERT_N low for 50 ns (Table 17-4, steps 1 to 3). -/
def State.alert (s : State) : State :=
  if !s.bit Reg.PWR_ALERT 1 then s
  else
    let ops := (List.range 4).foldl (fun a q => a + 2 ^ (4 * q) * s.opNow q) 0
    let first := !s.alertOn
    let s := ((s.wr Reg.PWR_ALERT 1).count Reg.PWR_ALERT_CNT).raise 0x5100 0 ops
    let s := if first then { s with rack := { s.rack with alertAt := s.now } } else s
    let s := s.runQuads.foldl (fun s q => s.forcePoint0 q) s
    if s.fixedOn then s.violation 2 0 else s

/-- VRALERT_N high for 100 µs (step 4). -/
def State.alertHigh (s : State) : State :=
  if s.alertOn then s.wr Reg.PWR_ALERT 7 else s.setBit Reg.PWR_ALERT 1 true

/-- PWR_ALERT.ACK written (step 5, R577). -/
def State.alertAcked (s : State) : State :=
  if !s.bit Reg.PWR_ALERT 2 then s.raise 0x5102 0
  else (s.wr Reg.PWR_ALERT 2).raise 0x5101 0 ((s.now - s.rack.alertAt) / 1000 % 2 ^ 32)

/-! ### The tray's envelope (R21 to R24, R28, R29, R560) -/

/-- Temperature that an inlet sensor shows, if valid, in 1/16 °C. -/
def State.inlet (s : State) (i : Nat) : Option Int :=
  let w := s.rd Reg.MGMT_INLET
  if w.getLsbD (12 + 16 * i) then some (sInt 12 (Sys2Proof.fld w (11 + 16 * i) (16 * i))) else none

/-- Take a reading of an inlet sensor: valid within -40 to +100 °C (R29). -/
def State.inletRead (s : State) (i : Nat) (t : Option (BitVec 12)) : State :=
  match t with
  | none => s
  | some t =>
    (s.setF Reg.MGMT_INLET (11 + 16 * i) (16 * i) t.toNat).setBit Reg.MGMT_INLET (12 + 16 * i)
      (decide (-640 ≤ t.toInt ∧ t.toInt ≤ 1600))

/-- T of the envelope in 1/16 °C, before the fans count (R22, R28, R29). -/
def State.inletT (s : State) : Int :=
  match s.inlet 0, s.inlet 1 with
  | some a, some b => max a b
  | some a, none => a + 80
  | none, some b => b + 80
  | none, none => 1120

/-- The envelope at an effective temperature in 1/16 °C, exactly, in units of 1/1600 W (R21): 16.67 W/°C is 1,667 of them
for each 1/16 °C. -/
def envelopeOf (t : Int) : Nat := (1120000 - max 0 (t - 880) * 1667).toNat

/-- The envelope in whole watts, as PWR_TRAYENV and event 0x5105 show it: the spec gives no rounding, the model rounds down
(DESIGN CHOICE, log 62). -/
def envelopeW (t : Int) : Nat := envelopeOf t / 1600

/-- Caps of the four chips with minimum cap and wait fraction, lowered by 2 W at a time until they fit (R560). -/
def fitCaps (env : Nat) : Nat → List (Nat × Nat × Nat) → List (Nat × Nat × Nat)
  | 0, cs => cs
  | fuel + 1, cs =>
    if (cs.foldl (fun a c => a + c.1) 0 + 100) * 1600 ≤ env then cs
    else
      let pick := (List.range cs.length).foldl (fun (m : Option Nat) i =>
        let c := cs.getD i (0, 0, 0)
        if c.1 < c.2.1 + 2 then m
        else match m with
          | none => some i
          | some j => if (cs.getD j (0, 0, 0)).2.2 < c.2.2 then some i else m) none
      match pick with
      | none => cs
      | some i => let c := cs.getD i (0, 0, 0); fitCaps env fuel (cs.set i (c.1 - 2, c.2))

/-- The tray's envelope leaves this chip a cap (R560): a lower one than PWR_CAP is written there, and the REPORT says so. -/
def State.capCut (s : State) (cap : Nat) : State :=
  if cap < s.getF Reg.PWR_CAP 7 0 then
    let s := s.setCap cap
    { s with rack := { s.rack with envCut := true } }
  else s

/-- The 1 s reading of chip 0's island (R22, R560): the effective temperature and the number of slow fans decide what
follows; here the readings are recorded and caps are lowered to the envelope.  Whether a fan reads below 50 % of its commanded
speed is an operand beside its command and its rpm: the spec gives no rpm for a command (DESIGN CHOICE, log 63).  Event 0x5105
names the tray by `trayByte` (log 64). -/
def State.envelope (s : State) (fans : List (BitVec 8 × BitVec 16 × Bool)) (peers : List (BitVec 8 × BitVec 8 × BitVec 16)) :
    (Int × Nat) × State :=
  let s := (List.range 4).foldl (fun s f =>
    match fans[f]? with
    | some (cmd, rpm, slow) =>
      let s := s.wr (Reg.MGMT_FAN f) (BitVec.ofNat 32 (cmd.toNat + 2 ^ 16 * rpm.toNat))
      let s := { s with panel := { s.panel with slow := setFld s.panel.slow f f (b2n slow) } }
      if slow then s.raise 0x8031 f rpm.toNat else s
    | none => s) s
  let slow := popc s.panel.slow.toNat 4
  let t := s.inletT + (if slow = 1 then 160 else 0)
  if 2 ≤ slow ∨ 1120 < t then ((t, slow), s)
  else
    let env := envelopeOf t
    let s := s.setF Reg.PWR_TRAYENV 15 0 (envelopeW t)
    let ws := (List.range 16).foldl (fun (a : Nat × Nat) p =>
      (a.1 + (s.rd (Reg.PWR_WAIT p)).toNat, a.2 + (s.rd (Reg.PWR_BUSY p)).toNat)) (0, 0)
    let (own, s) := s.waitFrac 16 ws.1 ws.2
    let cs := (s.getF Reg.PWR_CAP 7 0, s.minCap, own) :: (List.range 3).map fun i =>
      match peers[i]? with | some (c, m, w) => (c.toNat, m.toNat, w.toNat) | none => (0, 0, 0)
    let cs' := fitCaps env 400 cs
    let sum := cs'.foldl (fun a c => a + c.1) 0
    let cut := fun i => decide ((cs'.getD i (0, 0, 0)).1 < (cs.getD i (0, 0, 0)).1)
    let s := s.capCut (cs'.getD 0 (0, 0, 0)).1
    let s := [1, 2, 3].foldl (fun (s : State) i => if cut i then s.emit (.trayCap i (cs'.getD i (0, 0, 0)).1) else s) s
    let s := { s with rack := { s.rack with others := sum - (cs'.getD 0 (0, 0, 0)).1 } }
    ((t, slow), if (List.range 4).any cut then s.raise 0x5105 s.trayByte (envelopeW t + 2 ^ 16 * sum) else s)

end Sys2Proof.Machine
end

