-- ==== Sys2Proof/Machine/Blaze.lean ====
section
/-! DEFINITION. The Blaze tag (chapter 21): its areas, journalled records and locks, the RF requests, the wired bridge and
the service-request flag. -/

namespace Sys2Proof.Machine
open Sys2Proof

/-! ### Memory and areas (R656, R657) -/

/-- The areas of Table 21-1. -/
inductive Area where
  | identity | lockSvc | lockNotes | reserved | shutdown | digests | service | faults | notes | operator
  deriving DecidableEq, Repr

/-- The area of a block. -/
def areaOf (b : Nat) : Area :=
  if b < 32 then .identity else if b = 32 then .lockSvc else if b = 33 then .lockNotes
  else if 64 ≤ b ∧ b < 76 then .shutdown else if 96 ≤ b ∧ b < 136 then .digests
  else if 160 ≤ b ∧ b < 180 then .service else if 256 ≤ b ∧ b < 768 then .faults
  else if 768 ≤ b ∧ b < 1284 then .notes else if 1284 ≤ b ∧ b < 2048 then .operator else .reserved

/-- The four bytes of a block; a reserved one reads 0. -/
def State.block (s : State) (b : Nat) : List Byte :=
  if areaOf b = .reserved then leBytes 4 0 else s.blazeBytes (4 * b) 4

/-- Program a block. -/
def State.putBlock (s : State) (b : Nat) (d : Word) : State := s.blazePut (4 * b) (leBytes 4 d.toNat)

/-- Program blocks from `b`, the highest-numbered first (R661); only the first `k` of them in that order. -/
def State.putBlocks (s : State) (b : Nat) (ds : List Word) (k : Nat) : State :=
  ((ds.mapIdx fun i d => (b + i, d)).reverse.take k).foldl (fun s p => s.putBlock p.1 p.2) s

/-! ### Journalled records (R659 to R662) -/

/-- A record's two slots as block numbers and its payload length. -/
structure Rec where
  a : Nat
  b : Nat
  len : Nat
  deriving DecidableEq, Repr

def recShutdown : Rec := ⟨64, 70, 16⟩
def recDigests : Rec := ⟨96, 116, 72⟩
def recService : Rec := ⟨160, 170, 32⟩
def recNotes : Rec := ⟨768, 1026, 1024⟩

/-- SEQ of the slot at block `b`, if the slot is valid (R659). -/
def State.slotSeq (s : State) (b len : Nat) : Option Nat :=
  let d := s.blazeBytes (4 * b) (len + 8)
  if leAt d 2 2 = len ∧ crc16 (d.take (4 + len)) = leAt d (4 + len) 2 then some (leAt d 0 2) else none

/-- The slot that a reader takes: its block and SEQ (R660). -/
def State.slotTaken (s : State) (r : Rec) : Option (Nat × Nat) :=
  match s.slotSeq r.a r.len, s.slotSeq r.b r.len with
  | some x, some y => if 0 < (BitVec.ofNat 16 y - BitVec.ofNat 16 x).toInt then some (r.b, y) else some (r.a, x)
  | some x, none => some (r.a, x)
  | none, some y => some (r.b, y)
  | none, none => none

/-- The payload of a record, if it is present. -/
def State.recGet (s : State) (r : Rec) : Option (List Byte) :=
  (s.slotTaken r).map fun p => s.blazeBytes (4 * p.1 + 4) r.len

/-- Write a record to the slot that a reader would not take, header last (R661). -/
def State.recPut (s : State) (r : Rec) (payload : List Byte) : State :=
  let (slot, seq) := match s.slotTaken r with
    | some (b, q) => (if b = r.a then r.b else r.a, (q + 1) % 65536)
    | none => (r.a, 1)
  let hd := leBytes 2 seq ++ leBytes 2 r.len
  let d := hd ++ payload.take r.len
  let d := d ++ leBytes 2 (crc16 d) ++ leBytes 2 0
  let n := r.len / 4 + 2
  s.putBlocks slot ((List.range n).map fun i => BitVec.ofNat 32 (leAt d (4 * i) 4)) n

/-! ### Locks (R666 to R668) -/

/-- Block of the lock of SERVICE (record 2) or NOTES (record 3). -/
def lockBlk (record : Nat) : Nat := 30 + record
/-- OWNER of a record's lock: 0 free, 1 wired, 2 RF. -/
def State.lockOwner (s : State) (record : Nat) : Nat := leAt (s.block (lockBlk record)) 0 1
def State.lockSession (s : State) (record : Nat) : Nat := leAt (s.block (lockBlk record)) 2 2

/-- Take a record's lock for `owner` if it is free. -/
def State.takeLock (s : State) (record owner session : Nat) : State :=
  if s.lockOwner record = 0 then
    s.putBlock (lockBlk record) (BitVec.ofNat 32 (owner + 2 ^ 8 * record + 2 ^ 16 * session))
  else s

/-- Free a record's lock. -/
def State.freeLock (s : State) (record : Nat) : State := s.putBlock (lockBlk record) 0

/-- May interface `owner` write block b (Table 21-1, R668): 1 wired, 2 RF. -/
def State.mayWrite (s : State) (owner b : Nat) : Bool :=
  match areaOf b with
  | .service => s.lockOwner 2 == owner
  | .notes => s.lockOwner 3 == owner
  | .shutdown | .digests | .faults => owner == 1
  | .operator => owner == 2 && !s.blz.locked.contains b
  | _ => false

/-- A pending clear of the service-request flag is written once the lock of SERVICE is free (Table 21-6). -/
def State.serveClear (s : State) : State :=
  if !s.life.off && s.bit Reg.MGMT_BLZ_SVC 1 && s.lockOwner 2 == 0 then
    let d := match s.recGet recService with | some d => d | none => List.replicate 32 0
    (s.recPut recService (putLe (putLe d 0 1 0) 1 1 2)).setBit Reg.MGMT_BLZ_SVC 1 false
  else s

/-- Ask for the flag to be cleared (Table 20-5). -/
def State.askClear (s : State) : State := (s.setBit Reg.MGMT_BLZ_SVC 1 true).serveClear

/-! ### RF requests (R669, R670) -/

/-- A response without error, and an error. -/
def State.rfOk (s : State) (data : List Byte) : State := s.emit (.rfAnswer (0#8 :: data))
def State.rfErr (s : State) (code : Nat) : State := s.emit (.rfAnswer [1#8, BitVec.ofNat 8 code])

/-- A request that the tag answers: its flags are judged, and then `act` (R670). -/
def State.rfDo (s : State) (h : RfHead) (act : State → State) : State :=
  let s := { s with blz := { s.blz with field := true } }
  if h.select then s
  else
    match h.uid with
    | some u => if u ≠ Config.tagUid then s else if h.option then s.rfErr 0x03 else act s
    | none => if s.blz.quiet then s else if h.option then s.rfErr 0x03 else act s

/-- Inventory: the tag answers with DSFID 0 and its UID where its low bits match the mask. -/
def State.rfInventory (s : State) (h : RfHead) (len : Nat) (mask : Dword) : State :=
  let s := { s with blz := { s.blz with field := true } }
  if s.blz.quiet || Config.tagUid.toNat % 2 ^ len ≠ mask.toNat % 2 ^ len then s
  else if h.option then s.rfErr 0x03
  else s.rfOk (0#8 :: leBytes 8 Config.tagUid.toNat)

/-- Stay Quiet: addressed, without response. -/
def State.rfQuiet (s : State) (h : RfHead) : State :=
  if h.uid = some Config.tagUid ∧ !h.select then { s with blz := { s.blz with field := true, quiet := true } }
  else { s with blz := { s.blz with field := true } }

/-- Read `k` blocks from b of a tag that this form sees as `top` blocks. -/
def State.rfRead (s : State) (h : RfHead) (b k top : Nat) : State :=
  s.rfDo h fun s =>
    if 64 < k then s.rfErr 0x0F
    else if top < b + k then s.rfErr 0x10
    else s.rfOk ((List.range k).flatMap fun i => s.block (b + i))

/-- Write blocks from b. -/
def State.rfWrite (s : State) (h : RfHead) (b : Nat) (ds : List Word) (top : Nat) : State :=
  s.rfDo h fun s =>
    if 16 < ds.length then s.rfErr 0x0F
    else if top < b + ds.length then s.rfErr 0x10
    else if (List.range ds.length).all fun i => s.mayWrite 2 (b + i) then (s.putBlocks b ds ds.length).rfOk []
    else s.rfErr 0x12

/-- Lock a block. -/
def State.rfLock (s : State) (h : RfHead) (b : Nat) : State :=
  s.rfDo h fun s =>
    if 2047 < b then s.rfErr 0x10
    else if b < 32 then s.rfErr 0x11
    else if areaOf b ≠ .operator then s.rfErr 0x14
    else if s.blz.locked.contains b then s.rfErr 0x11
    else ({ s with blz := { s.blz with locked := s.blz.locked ++ [b] } }).rfOk []

/-- Get System Information, with the number of blocks in `bytes` bytes. -/
def State.rfInfo (s : State) (h : RfHead) (blocks bytes : Nat) : State :=
  s.rfDo h fun s => s.rfOk ([7#8] ++ leBytes 8 Config.tagUid.toNat ++ [0#8, 0#8] ++ leBytes bytes (blocks - 1) ++ [3#8])

/-- LOCK_RECORD: the response is OWNER and SESSION after the command. -/
def State.rfLockRecord (s : State) (h : RfHead) (record session : Nat) : State :=
  s.rfDo h fun s =>
    if record ≠ 2 ∧ record ≠ 3 then s.rfErr 0x0F
    else
      let s := s.takeLock record 2 session
      s.rfOk (leBytes 1 (s.lockOwner record) ++ leBytes 2 (s.lockSession record))

/-- RELEASE_RECORD: by its holder, if SESSION matches. -/
def State.rfRelease (s : State) (h : RfHead) (record session : Nat) : State :=
  s.rfDo h fun s =>
    if record ≠ 2 ∧ record ≠ 3 then s.rfErr 0x0F
    else
      let s := if s.lockOwner record = 2 ∧ s.lockSession record = session then (s.freeLock record).serveClear else s
      s.rfOk []

/-- The reader's field collapses (Table 21-7): during a write, the blocks programmed before it stay, the highest-numbered
ones, and a tag that has written none may still send error 0x13; the tag leaves the quiet state, and its locks time from now. -/
def State.fieldLost (s : State) (w : Option (RfHead × BitVec 16 × List Word × Nat)) : State :=
  let s := match w with
    | none => s
    | some (h, b, ds, k) =>
      let heard := !h.select && !h.option && (match h.uid with | some u => u == Config.tagUid | none => !s.blz.quiet)
      if heard && decide (ds.length ≤ 16 ∧ b.toNat + ds.length ≤ 2048) &&
          (List.range ds.length).all fun i => s.mayWrite 2 (b.toNat + i) then
        if k = 0 then
          let (sends, s) := s.draw 1
          if sends == 1#1 then s.rfErr 0x13 else s
        else s.putBlocks b.toNat ds k
      else s
  { s with blz := { s.blz with field := false, quiet := false } }

/-- A record lock expires 2 s after its holder's last activity: an RF holder's field is gone (R667). -/
def State.lockExpire (s : State) (record : Nat) : State :=
  if s.lockOwner record = 0 ∨ (s.lockOwner record = 2 ∧ s.blz.field) then s else (s.freeLock record).serveClear

/-! ### The wired bridge (R655, R668, R676, Registers) -/

/-- GO of MGMT_BLZ_CMD: the operation that the register then names starts, unless one is in progress. -/
def State.blzGo (s : State) (v : Word) : State :=
  if v.getLsbD 20 && !s.bit Reg.MGMT_BLZ_STAT 0 then
    ({ s with blz := { s.blz with cmd := s.rd Reg.MGMT_BLZ_CMD } }).setBit Reg.MGMT_BLZ_STAT 0 true
  else s

/-- Show the owners of the two locks as read. -/
def State.showLocks (s : State) : State :=
  (s.setF Reg.MGMT_BLZ_STAT 17 16 (s.lockOwner 2)).setF Reg.MGMT_BLZ_STAT 19 18 (s.lockOwner 3)

/-- Blocks, number of blocks, operation and record of the bridge's command in progress. -/
def State.blzBlock (s : State) : Nat := Sys2Proof.fld s.blz.cmd 10 0
def State.blzBlocks (s : State) : Nat := Sys2Proof.fld s.blz.cmd 15 12 + 1
def State.blzOp (s : State) : Nat := Sys2Proof.fld s.blz.cmd 17 16
def State.blzRecord (s : State) : Nat := Sys2Proof.fld s.blz.cmd 19 18

/-- The operation that MGMT_BLZ_CMD asked for, on an answering tag: its error code (Registers) and the state. -/
def State.blzAct (s : State) : Nat × State :=
  let b := s.blzBlock
  let n := s.blzBlocks
  let r := s.blzRecord
  match s.blzOp with
  | 0 =>
    let s := (List.range n).foldl (fun s i => s.wr (Reg.MGMT_BLZ_DATA i) (BitVec.ofNat 32 (leNat (s.block ((b + i) % 2048))))) s
    (0, if b ≤ 33 ∧ 32 < b + n then s.showLocks else s)
  | 1 =>
    if b + n ≤ 2048 ∧ (List.range n).all fun i => s.mayWrite 1 (b + i) then
      (0, s.putBlocks b ((List.range n).map fun i => s.rd (Reg.MGMT_BLZ_DATA i)) n)
    else (2, s)
  | 2 =>
    if r < 2 then (2, s)
    else if s.lockOwner r = 0 then
      let (x, s) := s.draw 16
      (0, (s.takeLock r 1 x.toNat).showLocks)
    else (3, s.showLocks)
  | _ =>
    if r < 2 then (2, s)
    else if s.lockOwner r = 1 then (0, ((s.freeLock r).serveClear).showLocks) else (3, s.showLocks)

/-- Does the bridge's write of SERVICE wait for a lock that is held elsewhere (R676). -/
def State.blzWaits (s : State) : Bool :=
  s.blzOp == 1 && s.lockOwner 2 == 2 && (List.range s.blzBlocks).any fun i => areaOf (s.blzBlock + i) == .service

/-- The wired operation ends (R676): `first` and `again` say whether the tag acknowledged; only chip 0's island is connected
to it.  A failed write is repeated once, and then raises event 0x8052. -/
def State.blzDone (s : State) (first again : Bool) : State :=
  if !s.bit Reg.MGMT_BLZ_STAT 0 || s.blzWaits then s
  else
    let try' := fun (ack : Bool) (s : State) => if ack && s.pos == 0 then s.blzAct else (1, s)
    let wr := decide (s.blzOp = 1)
    let (e, s) := try' first s
    let (e, s) := if e = 0 ∨ !wr then (e, s) else try' again s
    let s := ((s.setBit Reg.MGMT_BLZ_STAT 0 false).setBit Reg.MGMT_BLZ_STAT 1 true).setF Reg.MGMT_BLZ_STAT 15 8 e
    if e ≠ 0 && wr then
      s.raise 0x8052 0 (s.blzBlock + 2 ^ 16 * (if e = 2 then 0x12 else 0))
    else s

/-- The island reads SERVICE (R677): event 0x8053 when FLAG changes. -/
def State.flagPoll (s : State) : State :=
  if s.pos ≠ 0 then s
  else
    let d := match s.recGet recService with | some d => d | none => List.replicate 32 0
    let f := leAt d 0 1 % 2
    if f = s.getF Reg.MGMT_BLZ_SVC 0 0 then s
    else
      (s.setF Reg.MGMT_BLZ_SVC 0 0 f).raise 0x8053 0 (f + 2 ^ 8 * (leAt d 1 1 % 4) + 2 ^ 32 * leAt d 4 4)

/-- The shutdown record's payload (Table 21-3): KIND, HBM_LOST by chip and stack, MACROS_LOST by chip, DIRTY. -/
def State.putShutdown (s : State) (kind hbm macros : Nat) (dirty : Bool) : State :=
  s.recPut recShutdown (leBytes 1 kind ++ leBytes 1 hbm ++ leBytes 1 (macros + 16 * b2n dirty) ++ leBytes 1 0 ++
    leBytes 8 s.timeNow ++ leBytes 4 s.opsec)

end Sys2Proof.Machine
end

