-- ==== Sys2Proof/Machine/HbmCtl.lean ====
section
/-! DEFINITION. What the HBM controllers do of themselves (chapter 11): patrol, refresh, self-refresh, bring-up. -/

namespace Sys2Proof.Machine
open Sys2Proof

/-- The local address of offset o of pseudo-channel q: the inverse of Table 11-1. -/
def State.hbmEncode (s : State) (q o : Nat) : Nat :=
  match s.getF (Reg.HBM 0 Reg.HBM_CTRL) 1 0 with
  | 0 => o / 256 * 16384 + q * 256 + o % 256
  | 1 => o / 4096 * 262144 + q * 4096 + o % 4096
  | _ => q / 32 * 0x600000000 + o / 256 * 8192 + q % 32 * 256 + o % 256

/-- 64-byte words of a pseudo-channel (R362). -/
def pcWords : Nat := 12582912

/-- A field of HBM_STAT. -/
def State.hstat (s : State) (i b : Nat) : Bool := s.bit (Reg.HBM i Reg.HBM_STAT) b
def State.setHstat (s : State) (i b : Nat) (v : Bool) : State := s.setBit (Reg.HBM i Reg.HBM_STAT) b v

/-- HBM IDLE (chapter 11, Registers): no request queued, and no entry, exit or training (phase 2) in progress. -/
def State.hbmIdle (s : State) (i : Nat) : Bool :=
  let c := s.ctl i
  c.phase != 2 && c.seq.isNone && !(s.txnList.any fun p =>
    p.2.st == .sent && decide (p.2.addr / 2 ^ 40 = s.chipId ∧ p.2.addr % 2 ^ 40 < hbmSize) &&
      s.hbmStack (p.2.addr % 2 ^ 40) == i)

/-- The patrol of controller i reads its next word (R366). -/
def State.patrol (s : State) (i : Nat) (hits : List CellHit) : State :=
  let s := hits.foldl (fun s h => { s with hbmMark := s.hbmMark.set {} h.word ((s.hbmMark.get {} h.word).hit h) }) s
  if !s.bit (Reg.HBM i Reg.HBM_CTRL) 8 || !s.hbmReady i then s
  else
    let p := (s.ctl i).patrolPtr
    let q := 32 * i + p % 32
    let a := s.hbmEncode q (p / 32 * 64)
    let s := (s.hbmActivate a).modCtl i fun c => { c with patrolPtr := (p + 1) % (32 * pcWords) }
    let m := s.hbmMark.get {} (hbmWordKey (s.hbmKey a))
    if m.poison then s
    else if m.ue then s.hbmPoisonFresh a 0x2042
    else if m.ones = 0 then s
    else { s.hbmCorrected i with hbmMark := (s.hbmCorrected i).hbmMark.set {} (hbmWordKey (s.hbmKey a)) {} }

/-- All-bank refresh of a pseudo-channel is due (R367). -/
def State.refreshPc (s : State) (i pc : Nat) : State :=
  if (s.ctl i).phase < 3 || s.hstat i 2 then s else s.emit (.dramRefresh i pc)

/-- The stack temperature is read (R367, R374). -/
def State.hbmTemp (s : State) (i t : Nat) : State :=
  let s := s.wr (Reg.HBM i Reg.HBM_TEMP) (BitVec.ofNat 32 (t + 256 * b2n (decide (85 ≤ t))))
  if 95 ≤ t ∧ !s.hstat i 4 then (s.setHstat i 4 true).raise 0x2045 i t
  else if t < 90 then s.setHstat i 4 false
  else s

/-- A self-refresh sequence starts where SR_REQ differs from the state reached and none is in progress (R761). -/
def State.srGo (s : State) (i : Nat) : State :=
  let req := s.bit (Reg.HBM i Reg.HBM_CTRL) 4
  if (s.ctl i).phase = 4 ∧ (s.ctl i).seq.isNone ∧ req ≠ s.hstat i 2 then s.modCtl i fun c => { c with seq := some req }
  else s

/-- SR_REQ of controller i. -/
def State.srRequest (s : State) (i : Nat) (enter : Bool) : State := (s.setBit (Reg.HBM i Reg.HBM_CTRL) 4 enter).srGo i

/-- The contents of stack i are lost. -/
def State.stackLost (s : State) (i : Nat) : State :=
  { s with hbm := s.hbm.clear (i * 2 ^ 35) (2 ^ 35), hbmMark := s.hbmMark.clear (i * 2 ^ 29) (2 ^ 29) }

/-- CLK_LOCK.HCLKi: the HCLK PLL of stack i runs locked. -/
def State.hclk (s : State) (i : Nat) (on : Bool) : State := s.setBit Reg.CLK_LOCK (5 + i) on

/-- A self-refresh sequence ends (Table 11-2): entry stops the HCLK PLL, and exit has started it; on exit the stored timing is
rechecked, and a failure counts the contents lost (R381). -/
def State.srEnd (s : State) (i : Nat) (ok : Bool) (failPc : Nat) : State :=
  match (s.ctl i).seq with
  | none => s
  | some true =>
    let s := forN 32 (fun pc (s : State) => s.emit (.dramRefresh i pc)) s
    (((s.modCtl i fun c => { c with seq := none }).setHstat i 2 true).hclk i false).srGo i
  | some false =>
    let s := ((s.modCtl i fun c => { c with seq := none }).setHstat i 2 false).hclk i true
    if ok then s.srGo i
    else
      let s := (s.stackLost i).modCtl i fun c => { c with phase := 0 }
      ((s.setHstat i 1 false).setHstat i 3 true).raise 0x2044 i failPc

/-- Bring-up of controller i starts (Table 11-5, step 1): the contents are lost. -/
def State.hbmStart (s : State) (i : Nat) : State :=
  ((s.stackLost i).wr (Reg.HBM i Reg.HBM_STAT) 0).setCtl i { phase := 1 }

/-- Step 2, the HCLK PLL locked since: identity and RFM threshold. -/
def State.hbmLive (s : State) (i : Nat) (id : Dword) (rfm : Nat) : State :=
  if (s.ctl i).phase ≠ 1 then s
  else ((s.hclk i true).wr64 (Reg.HBM i Reg.HBM_ID_LO) id.toNat).modCtl i fun c => { c with phase := 2, rfm := rfm }

/-- Steps 3 and 4, R378: training ends at a rate, or fails; both stacks run at the lower of their rates (R373). -/
def State.hbmTrained (s : State) (i : Nat) (rate : Option Nat) (failPc : Nat) : State :=
  if (s.ctl i).phase ≠ 2 then s
  else
    match rate with
    | none => ((s.modCtl i fun c => { c with phase := 0 }).setHstat i 3 true).raise 0x2044 i failPc
    | some r =>
      let ask := s.getF (Reg.HBM i Reg.HBM_RATE) 1 0
      let r := max r ask
      let other := s.hstat (1 - i) 0
      let now := if other then max r (s.getF (Reg.HBM (1 - i) Reg.HBM_STAT) 9 8) else r
      let s := ((s.modCtl i fun c => { c with phase := 3 }).setHstat i 0 true).setF (Reg.HBM i Reg.HBM_STAT) 9 8 now
      let s := if other || r != ask then s.setF (Reg.HBM (1 - i) Reg.HBM_STAT) 9 8 now else s
      if r = ask then s else s.raise 0x2043 i r

/-- Step 5: every word is written with zeros, and requests are admitted. -/
def State.hbmInit (s : State) (i : Nat) : State :=
  if (s.ctl i).phase ≠ 3 then s
  else (((s.stackLost i).modCtl i fun c => { c with phase := 4, hourCe := 0, patrolPtr := 0 }).setHstat i 1 true).srGo i

/-- An hour of the controller's own ends (R379). -/
def State.hbmHour (s : State) (i : Nat) : State :=
  let n := (s.ctl i).hourCe
  let s := s.modCtl i fun c => { c with hourCe := 0 }
  if 1000 < n then s.raise 0x2040 i n else s

/-- HBM_CTRL written: `v` with its RW fields stored already. -/
def State.hbmCtrl (s : State) (i : Nat) (v : Word) : State :=
  let s := if v.getLsbD 9 then s.wr (Reg.HBM i Reg.HBM_CE_CNT) 0 else s
  let s := if v.getLsbD 10 then s.wr (Reg.HBM i Reg.HBM_UE_CNT) 0 else s
  s.srGo i

end Sys2Proof.Machine
end

