-- ==== Sys2Proof/Machine/Panel.lean ====
section
/-! DEFINITION. Camera ports and PoE (chapters 17 and 20): detection, grants, current monitoring, shedding, links and
cables, and the input samples. -/

namespace Sys2Proof.Machine
open Sys2Proof

/-- Port k of this chip beyond its registers. -/
def State.port (s : State) (k : Nat) : Port := s.panel.ports.get {} k
def State.setPort (s : State) (k : Nat) (p : Port) : State :=
  { s with panel := { s.panel with ports := s.panel.ports.set {} k p } }

/-- The camera port C0 to C15 of port k (chapter 20, Registers). -/
def State.camPort (s : State) (k : Nat) : Nat := 4 * s.pos + k

/-- MGMT_PORTk_STAT.PSE: 0 off, 1 detecting, 2 classified, 3 powered, 4 fault. -/
def State.pse (s : State) (k : Nat) : Nat := s.getF (Reg.MGMT_PORT_STAT k) 2 0
def State.setPse (s : State) (k p : Nat) : State := s.setF (Reg.MGMT_PORT_STAT k) 2 0 p
def State.portClass (s : State) (k : Nat) : Nat := s.getF (Reg.MGMT_PORT_STAT k) 6 4
def State.setPortClass (s : State) (k c : Nat) : State := s.setF (Reg.MGMT_PORT_STAT k) 6 4 c
def State.portLink (s : State) (k : Nat) : Bool := s.bit (Reg.MGMT_PORT_STAT k) 8
def State.portEn (s : State) (k : Nat) : Bool := s.bit (Reg.MGMT_PORT_CTRL k) 0

/-! ### Grants (R573 to R575) -/

/-- Table 17-3, in 0.1 W. -/
def poeGrant (cls : Nat) : Nat := [154, 40, 70, 154, 300, 450, 600].getD cls 0

/-- The sum of the grants, in 0.1 W, and its budget. -/
def State.poeSum (s : State) : Nat := s.panel.grants.foldl (fun a p => a + p.2) 0
def State.poeBudget (s : State) : Nat := 10 * s.getF Reg.MGMT_POE_BUDGET 8 0

/-- Reserve or release the grant of camera port c at chip 0's island. -/
def State.setGrant (s : State) (c w : Nat) : State :=
  let s := { s with panel := { s.panel with grants := s.panel.grants.set 0 c w } }
  s.setF Reg.MGMT_POE_GRANTED 15 0 s.poeSum

/-- Power port k under a grant: Table 20-3, steps 4 and 5. -/
def State.powerPort (s : State) (k : Nat) : State :=
  let g := poeGrant (s.portClass k)
  let s := (s.setPse k 3).setF (Reg.MGMT_PORT_I k) 31 16 g
  let s := s.setPort k { s.port k with overN := 0, noMps := 0, told := false }
  s.raise 0x8010 (s.camPort k) (s.portClass k + 2 ^ 16 * g)

/-- Camera port c of another chip reads off, and chip 0's island releases its grant (R574). -/
def State.poeFree (s : State) (c : Nat) : State := if s.pos = 0 ∧ c / 4 ≠ 0 then s.setGrant c 0 else s

/-- A request for the grant of camera port c of a class (R574): chip 0's island judges it, another chip has its answer. -/
def State.poeAsk (s : State) (c cls : Nat) (granted : Bool) : State :=
  let mine := c / 4 == s.pos
  let classified := mine && s.pse (c % 4) == 2
  if s.pos = 0 then
    if mine && !classified then s
    else if s.poeSum - s.panel.grants.get 0 c + poeGrant cls ≤ s.poeBudget then
      let s := s.setGrant c (poeGrant cls)
      if mine then s.powerPort (c % 4) else s.emit (.poeAnswer c true)
    else
      let s := s.raise 0x5110 c (cls + 2 ^ 16 * (s.poeBudget - s.poeSum))
      if mine then s else s.emit (.poeAnswer c false)
  else if !classified then s
  else
    let s := s.emit (.poeAsk c cls)
    if granted then s.powerPort (c % 4) else s

/-- Power of port k goes off, and its grant is released once it reads `st` (R574, R642): event 0x8011 with the reason. -/
def State.portOff (s : State) (k reason st : Nat) : State :=
  let ma := s.getF (Reg.MGMT_PORT_I k) 15 0
  let s := (s.setPse k st).wr (Reg.MGMT_PORT_I k) 0
  let c := s.camPort k
  let s := if s.pos = 0 then s.setGrant c 0 else s.emit (.poeOff c)
  s.raise 0x8011 c (reason + 2 ^ 16 * ma)

/-- Priority of camera port c. -/
def State.poePrio (s : State) (c : Nat) : Nat := s.getF Reg.MGMT_POE_PRIO (2 * c + 1) (2 * c)

/-- The port that is shed next: of those with a grant the one of lowest priority, the higher number first (R575). -/
def State.shedPick (s : State) : Option Nat :=
  (List.range 16).foldl (fun (m : Option Nat) c =>
    if s.panel.grants.get 0 c = 0 then m
    else match m with
      | none => some c
      | some d => if s.poePrio c ≤ s.poePrio d then some c else some d) none

/-- Turn camera port c off for the budget: event 0x5111. -/
def State.shed (s : State) (c : Nat) (overload : Bool) : State :=
  let s := if c < 4 then s.portOff c 3 0 else (s.emit (.poeOff c)).setGrant c 0
  s.raise 0x5111 c (b2n overload)

/-- Ports are turned off until the grants fit the budget: `fuel` bounds them. -/
def State.shedAll : Nat → State → State
  | 0, s => s
  | fuel + 1, s =>
    if s.poeSum ≤ s.poeBudget then s
    else match s.shedPick with
      | none => s
      | some c => shedAll fuel (s.shed c false)

/-- MGMT_POE_BUDGET written (R573, R575): above 360 it is stored as 360; only chip 0's acts. -/
def State.poeBudgetWrite (s : State) (v : Word) : State :=
  let s := s.wr Reg.MGMT_POE_BUDGET (BitVec.ofNat 32 (min (Sys2Proof.fld v 8 0) 360))
  if s.pos = 0 then State.shedAll 16 s else s

/-- The 54 V converter has drawn `w` (0.1 W) for 50 ms: while that exceeds the budget the next port is turned off (R575).
On chips 1 to 3 it is chip 0's island that turns this chip's port `off` off. -/
def State.poeOverload (s : State) (w : Nat) (off : Option Nat) : State :=
  if s.pos ≠ 0 then
    match off with
    | some k => if s.pse k = 3 then s.portOff k 3 0 else s
    | none => s
  else if w ≤ s.poeBudget then s
  else match s.shedPick with
    | none => s
    | some c => s.shed c true

/-! ### Detection (R640, R650) -/

/-- May port k run a detection cycle: enabled, unpowered, and 1 s after a turn-off of R642. -/
def State.mayDetect (s : State) (k : Nat) : Bool :=
  s.panel.pse && s.portEn k && s.pse k != 3 &&
    (s.pse k != 4 || match (s.port k).offs with | t :: _ => decide (t + 1000000000 ≤ s.now) | [] => true)

/-- A detection cycle of port k (Table 20-3, steps 1 to 5; Table 20-7). -/
def State.detect (s : State) (k : Nat) (sig : PortSig) (granted : Bool) : State :=
  if !s.mayDetect k then s
  else
    let bad := fun (s : State) (d : Nat) =>
      let s := (s.setPse k 1).setPortClass k 7
      if (s.port k).told then s else (s.setPort k { s.port k with told := true }).raise 0x8012 (s.camPort k) d
    match sig with
    | .empty => ((s.setPse k 1).setPortClass k 7).setPort k { s.port k with told := false }
    | .invalid => bad s 0
    | .unclassified => bad s 1
    | .cls c =>
      let again := s.pse k == 2
      let s := (s.setPse k 2).setPortClass k c
      if again then s else s.poeAsk (s.camPort k) c granted

/-- A turn-off of R642: counted, and after five within 60 s EN is cleared with event 0x8013 (R650). -/
def State.faultOff (s : State) (k reason : Nat) : State :=
  let s := (s.portOff k reason 4).countF (Reg.MGMT_PORT_STAT k) 23 16
  let p := s.port k
  let offs := (s.now :: p.offs).filter fun t => decide (s.now < t + 60000000000)
  let s := s.setPort k { p with offs := offs, overN := 0, noMps := 0 }
  if 5 ≤ offs.length then (s.setBit (Reg.MGMT_PORT_CTRL k) 0 false).raise 0x8013 (s.camPort k) else s

/-- The 1 ms current sample of a powered port (R642): 60 of them above 105 % of the grant at 54 V, or 350 without the
maintain power signature, turn it off. -/
def State.currentSample (s : State) (k ma : Nat) (mps : Bool) : State :=
  if s.pse k ≠ 3 then s
  else
    let g := s.getF (Reg.MGMT_PORT_I k) 31 16
    let s := s.setF (Reg.MGMT_PORT_I k) 15 0 ma
    let p := s.port k
    let p := { p with overN := if 105 * g < 54 * ma then p.overN + 1 else 0, noMps := if mps then 0 else p.noMps + 1 }
    let s := s.setPort k p
    if 60 ≤ p.overN then s.faultOff k 0 else if 350 ≤ p.noMps then s.faultOff k 1 else s

/-! ### The PHY and the cable (R641, R643) -/

/-- Streams of MAC k become LOST as its camera loses power (Table 20-7). -/
def State.portStreamsLost (s : State) (k : Nat) : State :=
  (List.range 64).foldl (fun s n =>
    let st := s.strState n
    if s.bit (Reg.STR n 0) 0 && s.strF n 0 2 1 == k && (st == 1 || st == 2) then
      s.enterLost n true
    else s) s

/-- The estimate of the echo canceller: every pair good. -/
def State.cableGood (s : State) (k : Nat) (lengths : Word) : State :=
  (s.wr (Reg.MGMT_PORT_CABLE k) lengths).wr (Reg.MGMT_PORT_PAIR k) 0

/-- The link of port k comes up. -/
def State.portUp (s : State) (k speed : Nat) (partner : Dword) (lengths : Word) : State :=
  if s.portLink k then s
  else
    let s := (s.setBit (Reg.MGMT_PORT_STAT k) 8 true).setF (Reg.MGMT_PORT_STAT k) 11 9 speed
    let s := ((s.wr64 (Reg.MGMT_PORT_PARTNER_LO k) partner.toNat).cableGood k lengths).setPort k
      { s.port k with changed := s.timeNow }
    if speed < 5 then s.raise 0x8021 (s.camPort k) speed else s

/-- The link of port k goes down: a reflectometry test starts. -/
def State.portDown (s : State) (k : Nat) : State :=
  if !s.portLink k then s
  else
    let s := (s.setBit (Reg.MGMT_PORT_STAT k) 8 false).setF (Reg.MGMT_PORT_STAT k) 11 9 0
    s.setPort k { s.port k with changed := s.timeNow, flaps := (s.port k).flaps + 1, tdr := true }

/-- 30 s after power-on without a link, a reflectometry test starts. -/
def State.tdrTimer (s : State) (k : Nat) : State :=
  if s.pse k = 3 ∧ !s.portLink k then s.setPort k { s.port k with tdr := true } else s

/-- A reflectometry test ends (R643): a fault found raises event 0x8020. -/
def State.tdrEnd (s : State) (k faults dist : Nat) : State :=
  if !(s.port k).tdr then s
  else
    let dist := if faults = 0 then 0 else dist
    let s := (s.setPort k { s.port k with tdr := false }).wr (Reg.MGMT_PORT_PAIR k) (BitVec.ofNat 32 (faults + 2 ^ 16 * dist))
    if faults = 0 then s else s.raise 0x8020 (s.camPort k) (faults + 2 ^ 32 * dist)

/-- MGMT_PORTk_CTRL written (R640, R643, R650, Table 20-7); `lengths` is what an estimate would read. -/
def State.portCtrl (s : State) (k : Nat) (v lengths : Word) : State :=
  let was := s.portEn k
  let en := v.getLsbD 0
  let s := s.setBit (Reg.MGMT_PORT_CTRL k) 0 en
  let s :=
    if was && !en then
      if s.pse k = 3 then (s.portOff k 2 0).portStreamsLost k else s.setPse k 0
    else if !was && en then
      let s := s.setPort k { s.port k with offs := [] }
      if s.panel.pse then s.setPse k 1 else s
    else s
  if !v.getLsbD 1 || (s.port k).tdr then s
  else if s.portLink k then s.cableGood k lengths
  else s.setPort k { s.port k with tdr := true }

/-! ### All ports together (R653) -/

/-- The camera ports are enabled: detection starts on each (Table 18-5, step 11). -/
def State.portsOn (s : State) : State :=
  let s := { s with panel := { s.panel with pse := true } }
  (List.range 4).foldl (fun s k => if s.portEn k && s.pse k != 3 then (s.setPse k 1).setPort k { s.port k with offs := [] } else s) s

/-- Every camera port is turned off. -/
def State.portsOff (s : State) : State :=
  let s := { s with panel := { s.panel with pse := false } }
  (List.range 4).foldl (fun s k => if s.pse k = 3 then s.portOff k 3 0 else (s.setPse k 0).setPortClass k 7) s

/-- Every camera port of the tray is turned off: chip 0's island releases every grant as the ports read off. -/
def State.portsOffTray (s : State) : State :=
  let s := s.portsOff
  if s.pos = 0 then ({ s with panel := { s.panel with grants := [] } }).setF Reg.MGMT_POE_GRANTED 15 0 0 else s

/-! ### The input (R644) -/

/-- The 1 ms sample of the input: outside 77 to 137.5 V for 100 ms it raises event 0x8030. -/
def State.vinSample (s : State) (vin iin : Nat) : State :=
  let s := s.wr Reg.MGMT_VIN (BitVec.ofNat 32 (vin + 2 ^ 16 * iin))
  let n := if vin < 770 ∨ 1375 < vin then min (s.panel.vinBad + 1) 101 else 0
  let s := { s with panel := { s.panel with vinBad := n } }
  if n = 100 then s.raise 0x8030 0 vin else s

end Sys2Proof.Machine
end

