-- ==== Sys2Proof/Machine/Sha.lean ====
section
/-! DEFINITION. SHA-256, the digest of images and of the directory (R210, R212, R490), from its definition in FIPS 180-4, which the
spec names without giving it (log 80): the constants are computed, and the message schedule is a window of 16 words. -/

namespace Sys2Proof

/-- The greatest `r` below `2 ^ k` more than its argument with `r ^ n ≤ x`, found bit by bit. -/
def rootBits (n x : Nat) : Nat → Nat → Nat
  | 0, r => r
  | k + 1, r => rootBits n x k (if (r + 2 ^ k) ^ n ≤ x then r + 2 ^ k else r)

/-- The first 64 primes. -/
def shaPrimes : List Nat :=
  ((List.range 312).drop 2).filter fun p => ((List.range 18).drop 2).all fun d => p % d != 0 || p == d

/-- The first 32 fraction bits of the `n`-th root of a number below 512. -/
def rootWord (n p : Nat) : BitVec 32 := BitVec.ofNat 32 (rootBits n (p * 2 ^ (32 * n)) 37 0)

/-- The working variables: the words of the hash value, which a round moves on by one place. -/
structure ShaVars where
  a : BitVec 32
  b : BitVec 32
  c : BitVec 32
  d : BitVec 32
  e : BitVec 32
  f : BitVec 32
  g : BitVec 32
  h : BitVec 32

/-- The hash value before the first block: square roots of the first 8 primes. -/
def shaFirst : ShaVars :=
  let q := fun (i : Nat) => rootWord 2 (shaPrimes.getD i 0)
  { a := q 0, b := q 1, c := q 2, d := q 3, e := q 4, f := q 5, g := q 6, h := q 7 }

/-- The round constants: cube roots of the first 64 primes. -/
def shaRoots : List (BitVec 32) := shaPrimes.map (rootWord 3)

/-- A word xored with itself turned right by three amounts, of which the last shifts out where `out` is set. -/
def mixWord (out : Bool) (i j k : Nat) (x : BitVec 32) : BitVec 32 :=
  let last := if out then x >>> k else x.rotateRight k
  last ^^^ x.rotateRight j ^^^ x.rotateRight i

/-- A round: `x` is its constant and schedule word added up. -/
def ShaVars.turn (v : ShaVars) (x : BitVec 32) : ShaVars :=
  let pick := (v.e &&& (v.f ^^^ v.g)) ^^^ v.g
  let most := (v.a &&& v.b) ||| (v.c &&& (v.a ||| v.b))
  let up := x + v.h + pick + mixWord false 6 11 25 v.e
  { b := v.a, c := v.b, d := v.c, f := v.e, g := v.f, h := v.g
    e := v.d + up
    a := up + most + mixWord false 2 13 22 v.a }

/-- The rounds of the constants, on a window of the next 16 words of the schedule. -/
def ShaVars.turns : List (BitVec 32) → List (BitVec 32) → ShaVars → ShaVars
  | k :: ks, w :: ws, v =>
    let new := w + ws.getD 8 0 + mixWord true 7 18 3 (ws.getD 0 0) + mixWord true 17 19 10 (ws.getD 13 0)
    ShaVars.turns ks (ws ++ [new]) (v.turn (k + w))
  | _, _, v => v

/-- Word-wise sum of two hash values. -/
def ShaVars.plus (u v : ShaVars) : ShaVars :=
  { a := u.a + v.a, b := u.b + v.b, c := u.c + v.c, d := u.d + v.d, e := u.e + v.e, f := u.f + v.f, g := u.g + v.g, h := u.h + v.h }

/-- The big-endian words of bytes. -/
def beWords (k : Nat) (m : List Byte) : List (BitVec 32) :=
  (List.range k).map fun i => BitVec.ofNat 32 (beNat ((m.drop (4 * i)).take 4))

/-- `k` blocks of 64 bytes on top of a hash value. -/
def ShaVars.blocks : Nat → List Byte → ShaVars → ShaVars
  | 0, _, v => v
  | k + 1, m, v => ShaVars.blocks k (m.drop 64) (v.plus (ShaVars.turns shaRoots (beWords 16 m) v))

/-- SHA-256 of a list of bytes: a byte 0x80, zeros and the length in bits fill the last block. -/
def sha256 (m : List Byte) : List Byte :=
  let k := (m.length + 72) / 64
  let fill := List.replicate (64 * k - m.length - 9) (0 : Byte)
  let v := ShaVars.blocks k (m ++ [0x80] ++ fill ++ (leBytes 8 (8 * m.length)).reverse) shaFirst
  [v.a, v.b, v.c, v.d, v.e, v.f, v.g, v.h].flatMap fun w => (leBytes 4 w.toNat).reverse

end Sys2Proof
end

