-- ==== Sys2Proof/Machine/Service.lean ====
section
/-! DEFINITION. The service of the Ranger runtime (chapter 15): directory, placements, start and stop, findings, the port
table, task faults. -/

namespace Sys2Proof.Machine
open Sys2Proof

/-! ### State of the service -/

def svBoot : Nat := 0
def svIdle : Nat := 1
def svStarting : Nat := 2
def svRunning : Nat := 3
def svStopping : Nat := 4
def svQuiesced : Nat := 5
def svRecovery : Nat := 6
def svMaint : Nat := 7

/-- RANGER_SVC.STATE. -/
def State.svState (s : State) : Nat := s.getF Reg.RANGER_SVC 3 0
def State.setSv (s : State) (x : Nat) : State := s.setF Reg.RANGER_SVC 3 0 x
def State.modSvc (s : State) (f : Svc → Svc) : State := { s with svc := f s.svc }

/-! ### Flash and HBM as the runtime uses them (R490, R489) -/

/-- Bytes of the boot flash. -/
def State.flashGet (s : State) (o n : Nat) : List Byte := s.flash.getMany 0xFF o n
def State.flashPut (s : State) (o : Nat) (bs : List Byte) : State := { s with flash := s.flash.setMany 0xFF o bs }

/-- The directory (Table 15-3). -/
def State.dir (s : State) : List Byte := s.flashGet 0 4096
/-- Does its CRC match. -/
def State.dirOk (s : State) : Bool := crc16 (s.dir.take 4094) == leAt s.dir 4094 2
/-- A directory begun anew: no placement, no address, and the default PTP role 1 (R503). -/
def newDir : List Byte := leBytes 4 0x31445254 ++ leBytes 1 1 ++ List.replicate 137 0 ++ leBytes 1 1 ++ List.replicate 3951 0
/-- Replace bytes of the directory and its CRC; a directory whose CRC fails is begun anew. -/
def State.putDir (s : State) (o : Nat) (bs : List Byte) : State :=
  let d := if s.dirOk then s.dir else newDir
  let d := (d.take o ++ bs ++ d.drop (o + bs.length)).take 4094
  s.flashPut 0 (d ++ leBytes 2 (crc16 d))

def State.dirState (s : State) : Nat := leAt s.dir 5 1
/-- PTP_ROLE (R503). -/
def State.ptpRole (s : State) : Nat := if s.dirOk then leAt s.dir 142 1 else 1
def fwBase : Nat := 0x00200000
def plxBase : Nat := 0x04000000
def fwMax : Nat := 62 * 2 ^ 20
def plxMax : Nat := 448 * 2 ^ 20
def State.plxLen (s : State) : Nat := leAt (s.flashGet 48 8) 0 8
/-- The PLX header (Table 6-12), and its PLACEMENT. -/
def State.plxHead (s : State) : List Byte := s.flashGet plxBase 128
def State.placement (s : State) : Nat := leAt s.plxHead 24 8

/-- The digest of a DXB or PLX image of `len` bytes at a flash offset, from byte `hd` on (R210, R212). -/
def State.imageDigest (s : State) (base hd len : Nat) : List Byte := sha256 (s.flashGet (base + hd) (min len plxMax - hd))

/-- The DIGESTS record as the directory has the images, on chip 0, whose island has the tag (R662, Table 21-3): zeros for a
placement that there is not. -/
def State.putDigests (s : State) : State :=
  if s.pos ≠ 0 then s
  else
    let d := s.dir
    s.recPut recDigests ((d.drop 16).take 32 ++
      (if s.plxLen = 0 then List.replicate 40 0 else (d.drop 56).take 32 ++ leBytes 8 s.placement))

/-- Write and read HBM. -/
def State.hbmPut (s : State) (a : Nat) (bs : List Byte) : State := (s.hbmWrite a (runsOf a bs)).2
def State.hbmGet (s : State) (a n : Nat) : List Byte × State :=
  match s.hbmRead a n with
  | (some (bs, _), s) => (bs, s)
  | (none, s) => (List.replicate n 0, s)

/-- Where the placement is staged (R603), golden copies and programs lie (Table 15-1). -/
def stageBase : Nat := 0x0A00000000
def goldBase : Nat := 0x0BC0000000
def ringBase (r : Nat) : Nat := 0x0BD0000000 + r * 0x200000
def progBase : Nat := 0x0BD1000000

/-- The placement is staged in HBM (R603). -/
def State.stage' (s : State) : State := s.hbmPut stageBase (s.flashGet plxBase s.plxLen)

/-! ### PLX records (R212 to R214) -/

/-- A record of the placement. -/
structure Rcd where
  typ : Nat
  chip : Nat
  mac : Nat
  tile : Nat
  param : List Byte
  body : List Byte
  deriving DecidableEq, Repr

/-- The records from flash offset o up to END; `fuel` bounds them. -/
def State.plxRecords (s : State) : Nat → Nat → List Rcd
  | 0, _ => []
  | fuel + 1, o =>
    let h := s.flashGet o 32
    let n := leAt h 8 8
    if leAt h 0 2 = 0xFFFF ∨ plxBase + s.plxLen ≤ o then []
    else
      ⟨leAt h 0 2, leAt h 4 1, leAt h 5 1, leAt h 6 2, h.drop 16, s.flashGet (o + 32) (min n plxMax)⟩ ::
        s.plxRecords fuel (o + (32 + n + 63) / 64 * 64)

/-- Every record, and those that map to this chip (R492). -/
def State.records (s : State) : List Rcd := s.plxRecords (leAt s.plxHead 10 2) (plxBase + 128)
def State.myRecords (s : State) (typ : Nat) : List Rcd :=
  s.records.filter fun r => r.typ == typ && 4 * s.svc.base + r.chip == s.chipId

/-- Does the runtime run on Ranger core k: the chip has booted and is not RETAINED, and the core is not halted. -/
def State.runtimeOn (s : State) (k : Fin 4) : Bool :=
  !s.life.off && !s.life.failed && s.svState != svBoot && s.svState != svRecovery && s.getF Reg.CLK_LIFE 3 0 != 3 &&
    !(s.core (.ranger k)).halted

/-! ### The steps of a start (Table 15-4) -/

/-- Which check of step 1 fails: 0 a digest, 1 the mapping, 2 a chip that does not answer with SLOT_OK. -/
def State.startCheck (s : State) (answers : Bool) : Option Nat :=
  let dg := s.imageDigest plxBase 128 (leAt s.plxHead 16 8)
  let blz := match s.recGet recDigests with
    | some d => !s.life.tag || (d.drop 32).take 32 == dg
    | none => true
  if s.plxLen = 0 ∨ dg ≠ (s.plxHead.drop 32).take 32 ∨ dg ≠ (s.dir.drop 56).take 32 ∨ blz = false then some 0
  else if 64 < 4 * s.svc.base + leAt s.plxHead 8 2 then some 1
  else if !answers || !s.slotOk || s.svc.sameId then some 2
  else none

/-- A start fails at a step: event 0x7013, and the service is IDLE (R494). -/
def State.startFail (s : State) (step check : Nat) : State :=
  ((s.modSvc fun v => { v with todo := [], acts := [], quiesce := false }).setSv svIdle).raise 0x7013 0 (step + 256 * check)

/-- The register writes of a BANKS record (R212): its tile's stripes are disabled, the banks change hands, and the stripes that
the record gives are enabled.  A CACHE set changes in one write, so that the map stays legal (R334): banks that leave it go to
SEQ first. -/
def State.bankWrites (s : State) (r : Rcd) : List (Nat × Word) :=
  let n := r.tile
  let b := fun (i : Nat) => leAt r.body i 1
  let own := fun (o : Nat) (f : Nat → Bool) =>
    let m := ((List.range 16).filter f).foldl (fun a i => a + 2 ^ i) 0
    if m = 0 then [] else [(Reg.TILE n Reg.TILE_OWNER, BitVec.ofNat 32 (m + 2 ^ 16 * o))]
  let leaves := fun (i : Nat) => s.owner n i == oCache && b i % 8 != oCache
  let now := fun (i : Nat) => if leaves i then oSeq else s.owner n i
  let stripes := (List.range 4).filterMap fun i =>
    match (List.range 16).filter fun x => b x / 16 == i with
    | [] => none
    | f :: fs => some (Reg.TILE n (Reg.TILE_STRIPE i), BitVec.ofNat 32 (f + 16 * Nat.log2 (fs.length + 1) + 128))
  ((List.range 4).map fun i => (Reg.TILE n (Reg.TILE_STRIPE i), (0 : Word))) ++ own oSeq leaves ++
    ((List.range 8).flatMap fun o => own o fun i => b i % 8 == o && now i != o) ++ stripes

/-- A BANKS record: its register writes wait for the runtime to make them, and its resident marks are set. -/
def State.applyBanks (s : State) (r : Rcd) : State :=
  if 144 ≤ r.tile || !s.quadRuns r.tile then s
  else
    let res := ((List.range 16).filter fun i => (leAt r.body i 1).testBit 3).foldl (fun a i => a + 2 ^ i) 0
    let ws := s.bankWrites r
    (s.setF (Reg.TILE r.tile Reg.TILE_RESIDENT) 15 0 res).modSvc fun v => { v with acts := v.acts ++ ws }

/-- Does the chip still hold the contents that a MACRO or SCALES record gives (R510): its macro is marked resident, nothing was
lost, and neither the placement nor its BASE has changed since (R494, R505). -/
def State.macroHeld (s : State) (r : Rcd) : Bool :=
  !s.svc.reload && !s.svc.changed && s.macroResident r.tile (r.mac % 16)

/-- A MACRO, SCALES or CODEBOOK record; a macro whose contents the chip still holds is skipped. -/
def State.applyLoad (s : State) (r : Rcd) : State :=
  let n := r.tile
  let p := fun (i k : Nat) => leAt r.param i k
  if 144 ≤ n ∨ !s.reachable n then s
  else if r.typ = 4 then
    let k := p 0 1 % 16
    let es := (List.range (if k < 8 then 16 else 256)).map fun i => BitVec.ofNat 16 (leAt r.body (2 * i) 2)
    s.modTile n fun t => { t with cb := t.cb.set {} k ⟨true, p 1 1, codebookQmax es, es⟩ }
  else if s.macroHeld r then s
  else if r.typ = 2 then
    let wm := p 2 1
    let mode := wm / 16
    let (cb, src) := if mode = modeCb16 then (r.body.take 16, r.body.drop 16) else (([] : List Byte), r.body)
    s.loadRows n (r.mac % 16) (p 0 1) (p 1 1) (wm % 16) (p 4 2) (p 3 1 % 4) mode cb src none
  else
    let per := p 4 2 * (128 / groupSize (p 2 1 % 4))
    forN (p 1 1) (fun k (s : State) =>
      let sc := (List.range per).map fun j => BitVec.ofNat 16 (leAt r.body (2 * (k * per + j)) 2)
      s.setRg n (r.mac % 16) (p 0 1 + k) { s.rg n (r.mac % 16) (p 0 1 + k) with scales := some sc }) s

/-- A MACRO record is applied, and its resident mark set as it says. -/
def State.applyMacro (s : State) (r : Rcd) : State :=
  let s := s.applyLoad r
  if r.typ = 2 ∧ r.tile < 144 then
    s.setBit (Reg.TILE r.tile Reg.TILE_RESIDENT) (16 + r.mac % 16) (leAt r.param 6 1 == 1)
  else s

/-- The golden copy of a resident macro (R371, R494). -/
def State.goldenCopy (s : State) (r : Rcd) : State :=
  if leAt r.param 6 1 ≠ 1 ∨ 144 ≤ r.tile then s
  else
    let m := r.mac % 16
    s.hbmPut (goldBase + (16 * r.tile + m) * 73728)
      ((List.range 4096).flatMap fun i =>
        let w := (s.rg r.tile m (i / 128)).w
        let b := s.rowBits r.tile m i
        leBytes 18 (if w = 0 then b else withLane b w).toNat)

/-- A WINDOW record: its words, SRC shifted by 4 * BASE (R493), EN last. -/
def State.openWindow (s : State) (r : Rcd) : State :=
  let w := leAt r.param 0 2 % 256
  let x := fun (o : Nat) => BitVec.ofNat 32 (leAt r.body o 4)
  let src := leAt r.body 0x10 8 * 2 ^ (4 * s.svc.base)
  let s := [0x00, 0x04, 0x08].foldl (fun s o => s.winWrite w o (x o)) s
  let s := (s.winWrite w 0x10 (BitVec.ofNat 32 src)).winWrite w 0x14 (BitVec.ofNat 32 (src / 2 ^ 32))
  (s.winWrite w 0x0C (x 0x0C)).modSvc fun v => { v with windows := v.windows.filter (· != w) ++ [w] }

/-- The runtime opens window 255, over the first 16 KiB of bank 15 of tile 143 (R489); which chips it admits and how is internal
to the runtime (R488), so those are free values (log 77). -/
def State.openOwn (s : State) : State :=
  let (src, s) := s.draw 64
  let (rd, s) := s.draw 1
  let (md, s) := s.draw 2
  let fe := if md.toNat = 3 then 0 else md.toNat
  let ws := [(0x00, 0x08FF0000), (0x04, 0x10), (0x08, 255), (0x10, src.toNat), (0x14, src.toNat / 2 ^ 32),
    (0x0C, 1 + 2 * rd.toNat + 4 * fe)]
  ws.foldl (fun s w => s.winWrite 255 w.1 (BitVec.ofNat 32 w.2)) s

/-- A section of a DXB file (Table 6-11). -/
def dxbSect (b : List Byte) (i : Nat) : List Byte := (b.drop (64 + 32 * i)).take 32

/-- Load addresses of the sections, by index, placed from `top` on a chip; and the next free local address. -/
def dxbPlace (chip : Nat) (b : List Byte) : Nat → Nat → List Nat × Nat
  | 0, top => ([], top)
  | k + 1, top =>
    let (ls, top) := dxbPlace chip b k top
    let e := dxbSect b k
    let ty := leAt e 0 4
    if ty = 0 ∨ 4 < ty then (ls ++ [0], top)
    else if leAt e 24 8 = 0xFFFFFFFFFFFFFFFF then
      let al := 2 ^ min (leAt e 4 4) 20
      let a := (top + al - 1) / al * al
      (ls ++ [chip * 2 ^ 40 + a], a + leAt e 16 8)
    else (ls ++ [leAt e 24 8], top)

/-- A section's bytes as its file gives them. -/
def dxbBytes (b : List Byte) (i : Nat) : List Byte :=
  let e := dxbSect b i
  let n := leAt e 16 8
  if leAt e 0 4 = 4 then List.replicate n 0 else (b.drop (leAt e 8 8)).take n

/-- The entries of the RELOC sections among the first `n` sections of a DXB file (R211). -/
def dxbRelocs (b : List Byte) (n : Nat) : List (List Byte) :=
  (List.range n).flatMap fun i =>
    let e := dxbSect b i
    if leAt e 0 4 = 6 then (List.range (leAt e 16 8 / 16)).map fun j => (b.drop (leAt e 8 8 + 16 * j)).take 16 else []

/-- Bytes of section `t` after the relocations of its fields: KIND 1 adds a load address to a 64-bit field, 2 to a 48-bit
field. -/
def dxbRelocated (b : List Byte) (ls : List Nat) (t : Nat) : List Byte :=
  ((dxbRelocs b (leAt b 12 4)).filter fun x => leAt x 12 2 == t).foldl (fun d x =>
    let o := leAt x 0 8
    let k := if leAt x 8 4 = 1 then 8 else 6
    if o + k ≤ d.length then putLe d o k (leAt d o k + ls.getD (leAt x 14 2) 0) else d) (dxbBytes b t)

/-- Bytes at a 48-bit load address, of this chip or another (Table 6-11): into own HBM at once, elsewhere as one transaction of
Ranger core 0 (log 74). -/
def State.placeBytes (s : State) (a : Nat) (bs : List Byte) : State :=
  if bs.isEmpty then s
  else
    let far := (s.sendTxn { agent := 144, origin := .store, addr := a % 2 ^ 48, op := .write (runsOf a bs) }).2
    match s.localAddr a with
    | none => far
    | some la => match regionAt la bs.length with
      | .hbm => s.hbmPut la bs
      | .sp _ | .dbg _ _ | .sram => far
      | _ => s

/-- A PROGRAM record: its sections are relocated and placed (R211). -/
def State.placeProgram (s : State) (ls : List Nat) (b : List Byte) : State :=
  (List.range (leAt b 12 4)).foldl (fun s i =>
    let ty := leAt (dxbSect b i) 0 4
    if ty = 0 ∨ 4 < ty then s else s.placeBytes (ls.getD i 0) (dxbRelocated b ls i)) s

/-- The programs of this chip, numbered by order of appearance among all (R213): index, file, load addresses of its sections, and
entry point. -/
def State.programList (s : State) : List (Nat × List Byte × List Nat × Option Nat) :=
  let ps := (s.records.filter fun r => r.typ == 1).zipIdx.filter fun p => 4 * s.svc.base + p.1.chip == s.chipId
  (ps.foldl (fun (a : Nat × List (Nat × List Byte × List Nat × Option Nat)) p =>
    let b := p.1.body
    let n := leAt b 12 4
    let (ls, top) := dxbPlace s.chipId b n a.1
    let entry := ((List.range n).find? fun i => leAt (dxbSect b i) 0 4 == 1).map fun i => ls.getD i 0 + leAt b 16 8
    (top, a.2 ++ [(p.2, b, ls, entry)])) (progBase, [])).2

/-- The entry points of the programs, by index. -/
def State.findPrograms (s : State) : State :=
  let ps := s.programList.map fun p => (p.1, p.2.2.2)
  s.modSvc fun v => { v with programs := ps.foldl (fun (m : SMap (Option Nat)) p => m.set none p.1 p.2) [] }

/-- Every PROGRAM record of this chip is placed. -/
def State.placePrograms (s : State) : State :=
  s.programList.foldl (fun s p => s.placeProgram p.2.2.1 p.2.1) s.findPrograms

/-- Launch a tile of a crew by its task registers (R214, NOTIFY 2); a gated tile wakes for it (R526). -/
def State.crewTile (s : State) (n : Fin 144) (pc : Nat) (crew task rank size : Nat) (args : List Byte) : State :=
  let r := fun (o : Nat) => Reg.TILE n o
  let s := s.wr64 (r Reg.TILE_TASK_PC_LO) pc
  let s := (List.range 4).foldl (fun s k => s.wr64 (r (Reg.TILE_TASK_ARG k)) (leAt args (8 * k) 8)) s
  let s := s.wr (r Reg.TILE_TASK_ID) (BitVec.ofNat 32 (task + 2 ^ 16 * crew + 2 ^ 24 * rank))
  let s := (s.wr (r Reg.TILE_TASK_SIZE) (BitVec.ofNat 32 size)).setF (r Reg.TILE_TASK_CTRL) 5 4 2
  if s.gated n then
    (s.modTile n fun t => { t with heldWrites := t.heldWrites ++
      [{ agent := .ranger 0, rel := Reg.TILE_TASK_CTRL, write := some 0x21 }] }).wakeTile n
  else s.taskGo n false

/-- A CREW record: `none` where its bitmap is empty or its program is not placed here. -/
def State.launchCrew (s : State) (r : Rcd) : Option State :=
  let bm := leAt r.body 0 18
  let tiles := (List.finRange 144).filter fun n => bm.testBit n.val
  match s.svc.programs.get none (leAt r.param 2 2) with
  | none => none
  | some pc =>
    if tiles.isEmpty then none
    else
      let s := tiles.zipIdx.foldl (fun s p =>
        s.crewTile p.1 pc (leAt r.param 0 1) (leAt r.param 4 2) p.2 (tiles.length - 1) (r.body.drop 24)) s
      some (s.modSvc fun v => { v with crews := v.crews ++ (tiles.map fun n => n.val).filter fun n => !v.crews.contains n })

/-- A STREAM record in stream entry n (R484): writes of its words +0x04 to +0x28, then of +0x00 with EN 1, as any register writes
are stored; in an entry that is enabled they are PENDING (R458). -/
def State.placeStream (s : State) (n : Nat) (r : Rcd) : State :=
  let was := s.bit (Reg.STR n 0) 0
  let s := (List.range 10).foldl (fun s i =>
    let v := BitVec.ofNat 32 (leAt r.body (4 * i + 4) 4)
    s.putReg (Reg.STR n (4 * i + 4)) (if i = 9 then frameTo v else v)) s
  let s := (s.putReg (Reg.STR n 0) (BitVec.ofNat 32 (leAt r.body 0 4) ||| 1)).strCtrl n was
  s.modSvc fun v => { v with streams := v.streams ++ [(n, leAt r.param 0 1)] }

/-- Step `k` of Table 15-4 beyond the first. -/
def State.startStep (s : State) (k : Nat) : State :=
  match k with
  | 2 => s.wr (Reg.CHIP_SCRATCH0 + 12) (BitVec.ofNat 32 (4 * s.svc.base + 256 * ((leAt s.plxHead 8 2 - 1) % 256)))
  | 3 => (s.myRecords 8).foldl State.applyBanks s
  | 4 =>
    let failed := (s.myRecords 2).any fun r => (List.range (leAt r.param 1 1)).any fun k =>
      s.healthOf r.tile (r.mac % 16) (leAt r.param 0 1 + k) == rgFailed
    if failed then s.startFail 4 0
    else (s.records.filter fun r => [2, 3, 4].contains r.typ && 4 * s.svc.base + r.chip == s.chipId).foldl State.applyMacro s
  | 5 => (s.myRecords 2).foldl State.goldenCopy s
  | 6 => (s.myRecords 9).foldl (fun s r =>
      (List.range 16).foldl (fun s i => s.putReg (Reg.PWR_PHASE i) (BitVec.ofNat 32 (leAt r.body (4 * i) 4))) s) s
  | 7 => (s.myRecords 7).foldl State.openWindow s
  | 8 => s.placePrograms
  | 9 =>
    let go := fun (a : Option State) (r : Rcd) => a.bind fun s => s.launchCrew r
    match (s.myRecords 5).foldl go (some s) with
    | some s => s
    | none => s.startFail 9 0
  | 10 =>
    let s := s.modSvc fun v => { v with streams := [] }
    let s := (s.myRecords 6).zipIdx.foldl (fun s p => s.placeStream (p.2 % 64) p.1) s
    ((s.modSvc fun v => { v with reload := false, changed := false }).setSv svRunning).raise 0x7010 0 s.placement
  | _ => s

/-- The gated tiles that step `k` configures or loads, in quadrants that run: the runtime wakes them first. -/
def State.startAsleep (s : State) (k : Nat) : List Nat :=
  let rs := if k = 3 then s.myRecords 8
    else if k = 4 then s.myRecords 4 ++ (s.myRecords 2 ++ s.myRecords 3).filter fun r => !s.macroHeld r
    else []
  (rs.map fun r => r.tile).filter fun n => decide (n < 144) && s.quadRuns n && s.gated n

/-- What keeps the runtime from the next step: register writes of the last one still to be made, stores of it not yet
acknowledged, or for step 3 an access or a handover that a tile of a BANKS record has in progress. -/
def State.startBusy (s : State) (k : Nat) : Bool :=
  !s.svc.acts.isEmpty || (s.tagList.any fun p => p.2.agent == 144 && p.2.origin == .store && !p.2.orphan) ||
    (k == 3 && (s.myRecords 8).any fun r => !(s.tile r.tile).handovers.isEmpty || !(s.tile r.tile).regQ.isEmpty)

/-- A start is accepted: step 1 (Table 15-4). -/
def State.startBegin (s : State) (base : Option Nat) (answers : Bool) : State :=
  let old := leAt s.dir 7 1 % 16
  let s := match base with
    | some b => s.putDir 7 (leBytes 1 b)
    | none => s
  let s := (s.modSvc fun v => { v with
    base := leAt s.dir 7 1 % 16, changed := v.changed || leAt s.dir 7 1 % 16 != old, restart := false, acts := [] }).setSv svStarting
  match s.startCheck answers with
  | some c => s.startFail 1 c
  | none => s.stage'.modSvc fun v => { v with todo := [2, 3, 4, 5, 6, 7, 8, 9, 10], crews := [], windows := [] }

/-- The service starts again with the steps `ks` of Table 15-4, unless a partner chip has this chip's own ID (R27). -/
def State.startAgain (s : State) (ks : List Nat) : State :=
  let s := (s.modSvc fun v => { v with todo := ks, restart := false, acts := [] }).setSv svStarting
  if s.svc.sameId then s.startFail 1 2 else s

/-- RESUME of a quiesced service: windows, and steps 9 and 10 (R495). -/
def State.resumeBegin (s : State) : State := s.startAgain [7, 9, 10]

/-- After a clean retention wake (R515): the programs lie in HBM as they did. -/
def State.wakeStart (s : State) : State :=
  ((s.modSvc fun v => { v with reload := false, base := leAt s.dir 7 1 % 16 }).findPrograms).startAgain [3, 4, 9, 10]

/-! ### Stopping (Table 15-5) -/

/-- Step 1: every stream entry is disabled; the drain begins. -/
def State.stopBegin (s : State) (goal reason after : Nat) : State :=
  let s := (List.range 64).foldl (fun s n =>
    if s.bit (Reg.STR n 0) 0 then (s.setBit (Reg.STR n 0) 0 false).strCtrl n true else s) s
  (s.modSvc fun v => { v with
    todo := [], acts := [], quiesce := false, stopTo := goal, reason := reason, after := after, restart := false }).setSv svStopping

/-! ### Findings (R496 to R500) -/

/-- A record with its runtime fields but RECSEQ and CRC (Table 15-6). -/
def State.fillRecord (s : State) (b : List Byte) : List Byte :=
  let b := putLe (putLe b 0 4 0x31524654) 4 1 1
  let n := leAt b 18 1 % 64
  let b := putLe (putLe b 16 1 s.chipId) 17 1 (4 * s.pos + s.strF n 0 2 1)
  putLe b 120 4 (s.placement % 2 ^ 32)

/-- A record takes its number and CRC, and waits for a datagram. -/
def State.numberRecord (s : State) (b : List Byte) : State :=
  let q := s.svc.recseq
  let b := putLe b 8 8 q
  let b := putLe b 124 4 (crc32 (b.take 124))
  s.modSvc fun v => { v with recseq := q + 1, waiting := v.waiting ++ [(q, b)],
                             held := (v.held ++ [(q, b)]).drop (v.held.length + 1 - 65536) }

/-- A record of this chip: the tray instance numbers it, another chip hands it over. -/
def State.emitRecord (s : State) (b : List Byte) : State :=
  let b := s.fillRecord b
  if s.pos = 0 then s.numberRecord b else s.emit (.toInstance 0 b)

/-- The KIND 3 record of a gap (R499). -/
def gapRecord (g : Gap) : List Byte :=
  let b := putLe (List.replicate 128 0) 5 1 3
  let b := putLe b 6 2 (if g.discont then 1 else 256)
  let b := putLe (putLe b 18 1 g.stream) 20 4 (if g.discont then g.seq else 0)
  putLe (putLe b 32 8 g.time) 48 8 g.odo.toNat

/-- Take up to `fuel` records of ring r from CONS on (R498). -/
def State.takeRing (r prod : Nat) : Nat → Nat → State → Nat × State
  | 0, cons, s => (cons, s)
  | fuel + 1, cons, s =>
    if cons = prod then (cons, s)
    else
      let (b, s) := s.hbmGet (ringBase r + 0x1000 + 128 * (cons % 8192)) 128
      let kind := leAt b 5 1
      let s :=
        if kind = 1 ∨ kind = 2 ∨ 0x80 ≤ kind then s.emitRecord b
        else (s.modSvc fun v => { v with rejected := v.rejected + 1 }).raise 0x7030 r kind
      takeRing r prod fuel ((cons + 1) % 2 ^ 64) s

/-- LOSS of ring r has been read; where it has risen, event 0x7031 at most once per 1 s (R513). -/
def State.ringLoss (s : State) (r loss : Nat) : State :=
  let s := s.modSvc fun v => { v with lossRead := v.lossRead.set 0 r loss }
  let seen := s.svc.loss.get 0 r
  let k := 0x7031 * 256 + r
  let due := match (s.limits.get {} k).last with | none => true | some t => decide (t + 1000000000 ≤ s.now)
  if loss ≤ seen ∨ due = false then s
  else
    let s := { s with limits := s.limits.set {} k (Limit.mk (some s.now) 0) }
    (s.modSvc fun v => { v with loss := v.loss.set 0 r loss }).raise 0x7031 r ((loss - seen) % 2 ^ 32)

/-- Core 1 reads one ring. -/
def State.pollRing (s : State) (r : Nat) : State :=
  let (h, s) := s.hbmGet (ringBase r) 24
  let prod := leAt h 0 8
  let cons := leAt h 8 8
  let (c, s) := State.takeRing r prod (min 8192 ((prod + 2 ^ 64 - cons) % 2 ^ 64)) cons s
  let s := if c = cons then s else s.hbmPut (ringBase r + 8) (leBytes 8 c)
  s.ringLoss r (leAt h 16 8)

/-- Core 1 takes new records: the gaps noted since, the rings, and what the other chips' instances hand on. -/
def State.pollFindings (s : State) (peers : List (List Byte)) : State :=
  let gs := s.svc.gaps
  let s := s.modSvc fun v => { v with gaps := [] }
  let s := gs.foldl (fun s g => s.emitRecord (gapRecord g)) s
  let s := (List.range 8).foldl State.pollRing s
  if s.pos = 0 then peers.foldl (fun s b => s.numberRecord ((b ++ List.replicate 128 0).take 128)) s else s

/-- The uplink in use: U0 while its link is up, U1 otherwise (R500). -/
def State.uplink (s : State) : Nat := if s.bit (Reg.MAC_STAT 4) 0 then 0 else 1

/-- The address of an interface (R516): as NET_SET stored it before the last reset, or the default, which takes the tray number
(`trayByte`, log 64, where the chip belongs to none). -/
def State.ifAddr (s : State) (i : Nat) : Nat :=
  let a := s.svc.net.getD i 0
  if a ≠ 0 then a else leNat [169#8, 254#8, if i = 1 then 48#8 else 47#8, BitVec.ofNat 8 (s.trayByte + 1)]

/-- A datagram of up to 11 records goes out (R500). -/
def State.findingsDatagram (s : State) : State :=
  match s.svc.waiting.take 11 with
  | [] => s
  | r :: rs =>
    let ps := r :: rs
    let b := leBytes 4 0x31444654 ++ leBytes 2 ps.length ++ leBytes 2 0 ++ leBytes 8 r.1 ++ ps.flatMap fun p => p.2
    let s := s.modSvc fun v => { v with waiting := v.waiting.drop 11, sent := v.sent + ps.length, datagrams := v.datagrams + 1 }
    s.emit (.udp s.uplink (s.ifAddr s.uplink) 47101 (leAt s.dir 136 4) (leAt s.dir 140 2) b)

/-- Every waiting record leaves. -/
def State.flushFindings : Nat → State → State
  | 0, s => s
  | fuel + 1, s => if s.svc.waiting.isEmpty then s else flushFindings fuel s.findingsDatagram

/-- Steps 3 to 6 of Table 15-5. -/
def State.stopFinish (s : State) (limit : Bool) : State :=
  let s := s.svc.crews.foldl (fun s n =>
    if h : n < 144 then (if (s.tile n).core.task = .running then s.taskStop ⟨n, h⟩ else s) else s) s
  let s := s.svc.windows.foldl (fun s w => s.winWrite w 0x0C (s.winReg w 0xC &&& 0xE)) s
  let s := (s.pollFindings [])
  let s := State.flushFindings (s.svc.waiting.length + 1) s
  let s := (s.modSvc fun v => { v with lastStop := v.reason, windows := [], crews := [] }).setSv s.svc.stopTo
  s.raise 0x7011 0 (s.svc.reason + 16 * b2n limit)

/-- Does every stream read READY 0 and HELD 0 (Table 15-5, step 2). -/
def State.streamsDrained (s : State) : Bool :=
  (List.range 64).all fun n => (s.strm n).ready.isEmpty && (s.strm n).held.isEmpty

/-- The drain of a stop ends (step 2): the streams are drained, or its limit is reached. -/
def State.drainEnds (s : State) (limit : Bool) : State :=
  if s.svState = svStopping ∧ (limit || s.streamsDrained) then s.stopFinish limit else s

/-! ### Task faults (R511) -/

/-- A crew tile has recorded event 0x1001: the service stops from step 3, to resume after 1 s, or for good on a second
fault within 60 s. -/
def State.taskFault (s : State) (n : Nat) : State :=
  if !s.svc.crews.contains n || (s.tile n).core.task != .stopped || !(s.svState == svRunning || s.svState == svStarting) then s
  else
    let again := match s.svc.faultAt with | some t => decide (s.now < t + 60000000000) | none => false
    let s := s.modSvc fun v => { v with todo := [], acts := [], quiesce := false, reason := 2, after := 0, faultAt := some s.now,
                                        stopTo := if again then svIdle else svQuiesced }
    let s := (s.stopFinish false).modSvc fun v => { v with restart := !again }
    let d := s.chipId + 256 * b2n (!again)
    let s := s.raise 0x7012 n d
    if again then (s.setBit Reg.RANGER_SVC 5 true).faultRecord 0x7012 n (BitVec.ofNat 64 d) else s

/-- The restart of R511. -/
def State.restartService (s : State) : State :=
  if s.svc.restart && s.svState == svQuiesced then s.resumeBegin else s

/-! ### The port table (R501, Table 15-7) -/

/-- The entry of port k of this chip. -/
def State.portEntry (s : State) (k : Nat) : List Byte :=
  let st := s.rd (Reg.MGMT_PORT_STAT k)
  let c := fld st 6 4
  let strm := match (List.range 64).find? fun n => s.bit (Reg.STR n 0) 0 && s.strF n 0 2 1 == k with
    | some n => s.strState n
    | none => 0xFF
  leBytes 1 (s.camPort k) ++ leBytes 1 (fld st 8 8) ++ leBytes 1 (fld st 11 9) ++ leBytes 1 (fld st 2 0) ++
  leBytes 1 (if c = 7 then 0xFF else c) ++ leBytes 1 strm ++ leBytes 2 (s.getF (Reg.MGMT_PORT_I k) 15 0) ++
  leBytes 2 (s.getF (Reg.MGMT_PORT_I k) 31 16) ++
  ((List.range 4).flatMap fun j => leBytes 2 (5 * s.getF (Reg.MGMT_PORT_CABLE k) (8 * j + 7) (8 * j))) ++
  ((List.range 4).flatMap fun j => leBytes 1 (s.getF (Reg.MGMT_PORT_PAIR k) (3 * j + 2) (3 * j))) ++
  leBytes 8 (s.rd64 (Reg.MGMT_PORT_PARTNER_LO k)) ++ leBytes 8 (s.svc.rx.get 0 k) ++
  leBytes 8 (s.rd (Reg.MAC_RXBAD k)).toNat ++ leBytes 8 (s.port k).changed ++ leBytes 4 (s.port k).flaps ++ leBytes 6 0

/-- The entry of the uplink that this chip's MAC 4 serves. -/
def State.uplinkEntry (s : State) (p : Nat) : List Byte :=
  let st := s.rd (Reg.MAC_STAT 4)
  let sp := fld st 2 1
  leBytes 1 p ++ leBytes 1 (fld st 0 0) ++ leBytes 1 (if sp = 2 then 6 else if sp = 1 then 5 else 0) ++ leBytes 1 0xFF ++
  leBytes 1 0xFF ++ leBytes 1 0xFF ++ leBytes 4 0 ++ leBytes 8 0 ++ leBytes 4 0x04040404 ++ leBytes 8 0 ++
  leBytes 8 (s.svc.rx.get 0 4) ++ leBytes 8 (s.rd (Reg.MAC_RXBAD 4)).toNat ++ leBytes 8 (s.port 4).changed ++
  leBytes 4 (s.port 4).flaps ++ leBytes 6 0

/-- The entry of the management port, which chip 0's island serves: 100BASE-TX without PSE, whose link, partner and counts no
register holds, so that they are free values (log 76). -/
def State.mgmtEntry (s : State) : List Byte × State :=
  let (up, s) := s.draw 1
  let (partner, s) := s.draw 64
  let (rx, s) := s.draw 64
  let (bad, s) := s.draw 64
  let (at', s) := s.draw 64
  let (flaps, s) := s.draw 32
  (leBytes 1 18 ++ leBytes 1 up.toNat ++ leBytes 1 up.toNat ++ leBytes 3 0xFFFFFF ++ leBytes 4 0 ++ leBytes 8 0 ++
    leBytes 4 0x04040404 ++ leBytes 8 partner.toNat ++ leBytes 8 rx.toNat ++ leBytes 8 bad.toNat ++ leBytes 8 at'.toNat ++
    leBytes 4 flaps.toNat ++ leBytes 6 0, s)

/-- The runtime refreshes the table: the entries of this chip's ports, and what the other chips' instances report. -/
def State.refreshPorts (s : State) (others : List (Nat × List Byte)) : State :=
  let (mgmt, s) := if s.pos = 0 then s.mgmtEntry else ([], s)
  let own := ((List.range 4).map fun k => (s.camPort k, s.portEntry k)) ++
    (if s.pos = 0 then [(16, s.uplinkEntry 16), (18, mgmt)] else if s.pos = 3 then [(17, s.uplinkEntry 17)] else [])
  let all := (others.filter fun o => !(own.any fun p => p.1 == o.1)) ++ own
  s.modSvc fun v => { v with ports := all.foldl (fun m p => m.set [] p.1 ((p.2 ++ List.replicate 64 0).take 64)) v.ports }

end Sys2Proof.Machine
end

