-- ==== Sys2Proof/Machine/Life.lean ====
section
/-! DEFINITION. The life of chip and tray (chapter 18): clocks, watchdogs, resets, boot, retention, power-down, loss of
input. -/

namespace Sys2Proof.Machine
open Sys2Proof

/-! ### CLK_LIFE and small helpers -/

def lfBoot : Nat := 0
def lfRun : Nat := 1
def lfRetaining : Nat := 2
def lfRetained : Nat := 3
def lfWaking : Nat := 4
def lfPowerdown : Nat := 5
def lfInputLoss : Nat := 6

def State.lf (s : State) : Nat := s.getF Reg.CLK_LIFE 3 0
def State.lfStep (s : State) : Nat := s.getF Reg.CLK_LIFE 11 8
def State.setLf (s : State) (x step : Nat) : State := s.wr Reg.CLK_LIFE (BitVec.ofNat 32 (x + 256 * step))
def State.modLife (s : State) (f : Life → Life) : State := { s with life := f s.life }

/-- Bits of CLK_RST_CAUSE. -/
def rcPor : Nat := 0
def rcButton : Nat := 1
def rcTtcp : Nat := 2
def rcWdog : Nat := 3
def rcSwdog : Nat := 4
def rcRef : Nat := 5
def rcPll : Nat := 6
def State.setCause (s : State) (i : Nat) : State := s.setBit Reg.CLK_RST_CAUSE i true

/-- ms from t0 to now. -/
def State.lifeMs (s : State) : Nat := (s.now - s.life.t0) / 1000000

/-! ### CLK writes (R594, R750) -/

/-- Is a write of `nv` to a CLK register outside Table 18-6, so that it is discarded with event 0x5206. -/
def State.clkDiscard (s : State) (off : Nat) (nv v : Word) : Option State :=
  let bad := (off == Reg.CLK_SSC && decide (Config.sscMax < Sys2Proof.fld nv 4 1)) ||
    (off == Reg.CLK_WDOG && decide (Sys2Proof.fld nv 31 16 < 100)) ||
    (off == Reg.CLK_WAKE && decide (Sys2Proof.fld nv 31 16 = 0))
  if bad then some (s.raise 0x5206 0 (off + 2 ^ 32 * v.toNat)) else none

/-- CLK_SSC has been written: the spread PLLs that are locked apply it in turn. -/
def State.sscWritten (s : State) : State :=
  let w := s.getF Reg.CLK_LOCK 4 0
  let s := s.modLife fun l => { l with sscWait := BitVec.ofNat 5 w }
  if w = 0 then (s.apply Reg.CLK_SSC).clearPend 0x010000 1 else s

/-- A spread PLL starts a modulation period (R750): TCLK0 to TCLK3, or NCLK. -/
def State.sscApply (s : State) (pll : Nat) : State :=
  let s := s.voteRange 0x010000 0x1000
  let w := s.life.sscWait
  if !w.getLsbD pll then s
  else
    let w := setFld w pll pll 0
    let s := s.modLife fun l => { l with sscWait := w }
    if w = 0 then (s.apply Reg.CLK_SSC).clearPend 0x010000 1 else s

/-! ### Reset of the chip's blocks (Table 18-4) -/

/-- Registers that main reset keeps; the TILE blocks go by the tile reset. -/
def keptByMain (off : Nat) : Bool :=
  decide (0x040000 ≤ off ∧ off < 0x070000) || decide (0x080000 ≤ off ∧ off < 0x0A0000) ||
    decide (Reg.CHIP_SCRATCH0 ≤ off ∧ off < Reg.CHIP_SCRATCH0 + 16) || off == Reg.THERM_TRIP ||
    off == Reg.CLK_RST_CAUSE || off == Reg.CLK_REF || off == Reg.PWR_CRU_BUDGET || decide (0x100000 ≤ off ∧ off < 0x190000)

/-- Registers that a retention wake keeps besides: the stacks' state, and the links' coefficients (Table 18-11). -/
def keptByWake (off : Nat) : Bool :=
  (List.range 2).any (fun i => [Reg.HBM_STAT, Reg.HBM_ID_LO, Reg.HBM_ID_LO + 4, Reg.HBM_TEMP].any fun r => off == Reg.HBM i r) ||
  (List.range 64).any fun k => off == Reg.YARDER k Reg.YARDER_TRAIN

/-- Every block but the kept ones at its reset values, every tile reset; a retention wake keeps the resident marks, the
resident macros' records and health, the repairs and the stacks. -/
def State.blocksReset (s : State) (wake : Bool) : State :=
  let keep := fun (off : Nat) => keptByMain off || (wake && keptByWake off)
  let trip := (List.range 4).filter fun q => s.tripped q
  let s := (List.range 144).foldl (fun s n =>
    let s := s.tileReset n wake
    if wake then s else (List.range 16).foldl (fun s m => s.unrecord n m 0 32) s) s
  let s := { s with
    regs := s.regs.filter fun (p : Nat × Word) => keep p.1
    app := s.app.filter fun (p : Nat × Word) => keep p.1
    votes := s.votes.filter fun (p : Nat × Word) => keep (p.1 / 4)
    voteRuns := [], voteFirst := none, voteRepairs := 0, latches := [], limits := [], notices := []
    barriers := [], macCnt := [], restoreQ := [], restore := none, errLog := [], errLostSec := 0, charges := []
    txns := [], links := [], winWait := [], closeNotes := [], streams := [], ingest := [], faultCodes := [], doms := [], quads := []
    cap := {}, phCnt := [], rack := {}
    opsecAt := if s.lf = lfRetained then s.opsecAt + (s.now - s.life.retAt) else s.opsecAt
    rangers := (List.range 4).foldl (fun (m : SMap Core) k =>
      m.set Core.rangerReset k { Core.rangerReset with cycle0 := s.nclk }) []
    health := if wake then s.health else []
    repairs := if wake then s.repairs else []
    hbmCtl := if wake then s.hbmCtl else []
    svc := { reload := !wake, changed := wake && s.svc.changed } }
  let s := (List.range 4).foldl (fun s q => s.startPoint q) s
  trip.foldl (fun s q => s.setQstate q qTripped) s

/-- The release of main reset (Table 18-5, step 5): slot code, PLLs but the controllers' own HCLK ones, rails, and what the
spec sets then. -/
def State.released (s : State) (tag : Bool) : State :=
  let s := s.sampleStraps
  let s := (s.wr Reg.CLK_LOCK 0x19F).setBit Reg.CLK_REF 0 true
  let s := s.wr Reg.CLK_RAIL (BitVec.ofNat 32 ((List.range 4).foldl (fun a q => a + 2 ^ (5 + q) * b2n (decide (s.qstate q ≤ 1))) 0x1F))
  let s := s.wr Reg.MGMT_FLASH (BitVec.ofNat 32 (Config.flashId.toNat + 2 ^ 24 * Config.flashLog.toNat + 2 ^ 31 * b2n Config.flashOk))
  let s := s.setF Reg.CLK_BOOT_MS 15 0 (min s.lifeMs 65535)
  let s := (s.modLife fun l => { l with tag := tag, failed := false, off := false, shed := false, refLost := false }).modSvc
    fun v => { v with net := (List.range 3).map fun i => leAt s.dir (88 + 16 * i) 4 }
  let s := if s.slotOk then s.setCap s.minCap else s.raise 0x8040 0 (s.getF Reg.CHIP_POS 9 0)
  if tag then s.flagPoll else if s.pos = 0 then (s.setBit Reg.RANGER_SVC 5 true).raise 0x8050 0 else s

/-- The chip does not complete its boot: it is held in reset, and tray attention is lit (R30). -/
def State.bootFail (s : State) : State :=
  ((s.portsOff.blocksReset false).modLife fun l => { l with failed := true }).setBit Reg.RANGER_SVC 5 true

/-- A boot from the release of main reset on (R589): the stacks train, and the boot ROM starts; it takes the boot flash
mode from BOOTMODE (R708, R715) and then reads what the flash is (R645). -/
def State.bootFrom (s : State) (tag : Bool) : State :=
  let s := ((s.released tag).hbmStart 0).hbmStart 1
  let s := s.setLf lfBoot 6
  let strap := s.rd Reg.PINS_STRAP
  if Sys2Proof.fld strap 3 2 = 3 then 
    let d := Sys2Proof.fld strap 8 0
    ((s.raise 0x6012 0 d).faultRecord 0x6012 0 (BitVec.ofNat 64 d)).bootFail
  else if Config.flashOk then s else (s.raise 0x8041 0 Config.flashId.toNat).bootFail

/-- Main reset of this chip, t0 being its assertion. -/
def State.mainReset (s : State) (cause : Nat) (tag : Bool) : State :=
  let s := (s.portsOff.blocksReset false).setCause cause
  let s := s.setBit Reg.CLK_RST_CAUSE 8 false
  let s := { s with life := { t0 := s.now, swdogAt := s.now }, panel := { s.panel with grants := [] } }
  (s.setF Reg.MGMT_POE_GRANTED 15 0 0).bootFrom tag

/-- Is TRST_N connected to its pin; where it is not, the island neither drives the line nor sees it low (R701). -/
def State.trstOn (s : State) : Bool := s.pinIs 22 1

/-- A tray reset that a source on this chip asks for (R588, R589): chip 0's island drives TRST_N, another asks it to. -/
def State.askTrayReset (s : State) (cause : Nat) : State :=
  if s.pos ≠ 0 then s.emit (.trayReset cause)
  else if s.trstOn then (s.emit (.trayReset cause)).mainReset cause s.life.tag
  else s

/-- Every scratchpad bank is to be initialised (R357). -/
def State.initAll (s : State) : State := (List.range 144).foldl (fun s n => s.setInit n true) s

/-- KIND and flags of the shutdown record (Table 18-9, Table 21-3): HBM_LOST and MACROS_LOST of this chip, DIRTY. -/
def State.lastRecord (s : State) : Option (Nat × Nat) :=
  (s.recGet recShutdown).map fun d =>
    (leAt d 0 1, leAt d 1 1 / 4 ^ s.pos % 4 + 4 * (leAt d 2 1 / 2 ^ s.pos % 2) + 8 * (leAt d 2 1 / 16 % 2))

/-- Does the record let a tray keep its placement: KIND RETAINED with every flag 0 (R601). -/
def State.recordKept (s : State) : Bool :=
  match s.recGet recShutdown with
  | some d => leAt d 0 1 == 2 && leAt d 1 1 == 0 && leAt d 2 1 % 32 == 0
  | none => false

/-- A dirty record raises event 0x5215 (R601). -/
def State.dirtyRecord (s : State) : State :=
  match s.lastRecord with
  | some (k, f) => if 8 ≤ f then s.raise 0x5215 0 (k + 256 * f) else s
  | none => s

/-- A cold boot from power-on reset up to step 5 (R588, R602, Table 18-5). -/
def State.coldBoot (s : State) (tag : Bool) : State :=
  let s := s.setCause rcPor
  let s := (List.range 4).foldl (fun s q => s.startPoint q) s
  let s := if tag then s.dirtyRecord else s
  s.initAll.bootFrom tag

/-- Locks of the tag after a loss of every supply: they read free, unless a reader's field powers the tag (R667). -/
def State.locksLost (s : State) : State := if s.blz.field then s else (s.freeLock 2).freeLock 3

/-- Power-on reset and its cold boot: flash, tag and fuses keep their contents; time counts from here. -/
def State.powerOn (s : State) (straps : BitVec 9) (tag : Bool) : State :=
  { State.coldBoot { State.reset with
      draws := s.draws, out := s.out, flash := s.flash, blaze := s.locksLost.blaze, blz := s.blz
      pinLevel := setFld s.pinLevel 8 0 straps.toNat, panel := { buttons := s.panel.buttons }, regs := [] } tag with
    pending := s.pending, now := 0, nclk := 0 }

/-! ### Boot (Table 18-5, R507, R514) -/

/-- What the boot ROM finds wrong: [0] firmware, [1] placement, [2] directory (R507, R675). -/
def State.bootFaults (s : State) : Nat :=
  if !s.dirOk then 4
  else
    let d := s.dir
    let fw := s.imageDigest fwBase 64 (leAt d 8 8)
    let plx := if s.plxLen = 0 then List.replicate 32 0 else s.imageDigest plxBase 128 s.plxLen
    let blz := if s.life.tag then s.recGet recDigests else none
    let differs := fun (o : Nat) (x : List Byte) => match blz with
      | some b => (b.drop o).take 32 != x
      | none => false
    let badFw := s.dirState == 1 || fw != (d.drop 16).take 32 || differs 0 ((d.drop 16).take 32)
    let badPlx := s.dirState == 2 || (s.plxLen != 0 && plx != (d.drop 56).take 32) ||
      differs 32 (if s.plxLen = 0 then List.replicate 32 0 else (d.drop 56).take 32)
    b2n badFw + 2 * b2n badPlx


/-- The boot is over: in RUNNING, IDLE or MAINT (R589); an absent DIGESTS record is written (R662). -/
def State.bootDone (s : State) : State :=
  let s := if s.life.tag && (s.recGet recDigests).isNone then s.putDigests else s
  let ms := if s.svState = svRunning then s.lifeMs else 0
  let s := (s.setLf lfRun 0).setF Reg.CLK_BOOT_MS 31 16 (min ms 65535)
  s.raise 0x5200 0 (s.getF Reg.CLK_RST_CAUSE 15 0 + 2 ^ 16 * (ms % 2 ^ 32))

/-- The first n Yarder links, those that may run, are enabled, and train if they are DOWN (R448). -/
def State.linksUp (s : State) (n : Nat) : State :=
  (List.range n).foldl (fun s k =>
    let s := if k < 24 || s.slotOk then s.setBit (Reg.YARDER k Reg.YARDER_CTRL) 0 true else s
    if s.lstate k == lkDown && s.linkMayRun k then s.startTraining k else s) s

/-- Every Yarder link is brought up (step 10). -/
def State.linksOn (s : State) : State := s.linksUp 64

/-- The tray enters RECOVERY; the ROM brings up the on-tray links (R507). -/
def State.enterRecovery (s : State) (faults : Nat) : State :=
  let s := s.modSvc fun v => { v with failed := BitVec.ofNat 3 faults, todo := [], recSeq := none }
  (((s.linksUp 24).setSv svRecovery).setLf lfRun 0).raise 0x7022 s.pos faults

/-- The MACs are enabled, and detection starts on the camera ports unless the tray is in maintenance (step 11, R26). -/
def State.macsOn (s : State) : State :=
  let s := (List.range 6).foldl (fun s k => s.setBit (Reg.MAC_CTRL k) 0 true) s
  if s.slotOk then s.portsOn else s

/-- Step 12: the runtime runs, and the service starts under R514, or is left IDLE or in maintenance. -/
def State.bootService (s : State) : State :=
  let s := s.openOwn
  if !s.slotOk then s.setSv svMaint
  else if s.dirState = 0 ∧ leAt s.dir 6 1 = 1 ∧ s.plxLen ≠ 0 then
    let (x, s) := (s.setSv svIdle).draw 1
    s.startBegin none (x == 1#1)
  else s.setSv svIdle

/-- The next step of a boot, where what it waits for has come; from `State.reset` on (step 0) the cold boot begins.  Steps 9,
10 and 11 start together: a placement that fails its check finds links and ports on their way up. -/
def State.bootTick (s : State) : State :=
  if s.life.failed then s
  else
    match s.lfStep with
    | 0 => s.coldBoot s.life.tag
    | 6 =>
      let s := if s.life.tag && (s.recGet recDigests).isNone then s.raise 0x8051 0 1 else s
      let f := s.bootFaults
      if f % 2 = 0 ∧ f < 4 ∧ s.dirState = 0 then s.setLf lfBoot 7 else s.enterRecovery f
    | 7 => if s.hstat 0 1 && s.hstat 1 1 then s.setLf lfBoot 8 else s
    | 8 =>
      let (short, s) := s.applyRepairs
      (if short then s.setBit Reg.RANGER_SVC 5 true else s).setLf lfBoot 9
    | 9 =>
      if s.bootFaults ≠ 0 then s.linksOn.macsOn.enterRecovery s.bootFaults
      else (if s.plxLen = 0 then s else s.stage').setLf lfBoot 10
    | 10 => s.linksOn.setLf lfBoot 11
    | 11 => s.macsOn.setLf lfBoot 12
    | _ => if s.svState = svBoot then s.bootService else if s.svState = svStarting then s else s.bootDone

/-- A boot step exceeds its limit (R598). -/
def State.stepTimeout (s : State) (step : Nat) : State :=
  if s.lf = lfBoot ∧ !s.life.failed then (s.raise 0x5216 0 step).bootFail else s

/-! ### Watchdogs (R591, R592) -/

/-- CLK_WDOG written: `old` is the register before. -/
def State.wdogWrite (s : State) (old : Word) : State :=
  if !old.getLsbD 0 && s.bit Reg.CLK_WDOG 0 then
    s.modLife fun l => { l with missed := 0, wdogAt := s.now, wdogPeriod := s.getF Reg.CLK_WDOG 31 16 }
  else s

/-- CLK_WDOG_KICK written. -/
def State.wdogKick (s : State) (v : Word) : State :=
  if !s.bit Reg.CLK_WDOG 0 then s
  else if Sys2Proof.fld v 15 0 = 0x0D06 then
    s.modLife fun l => { l with missed := 0, wdogAt := s.now, wdogPeriod := s.getF Reg.CLK_WDOG 31 16 }
  else s.modLife fun l => { l with missed := l.missed + 1 }

/-- The Ranger watchdog expires. -/
def State.wdogExpire (s : State) : State :=
  let s := s.voteUse Reg.CLK_WDOG
  if !s.bit Reg.CLK_WDOG 0 then s else (s.raise 0x5201 0 (s.life.missed % 2 ^ 32)).askTrayReset rcWdog

/-- CLK_SWDOG written. -/
def State.swdogKick (s : State) (v : Word) : State :=
  if v.getLsbD 0 then s.modLife fun l => { l with swdogAt := s.now } else s

/-- The Scaler watchdog expires: the Scaler restarts in resume mode, and every rail and block stays. -/
def State.swdogExpire (s : State) : State :=
  ((s.modLife fun l => { l with resumeMode := true, swdogAt := s.now }).setCause rcSwdog).raise 0x5205 0

/-! ### References, PLLs, soft resets (R593, R596, R597) -/

/-- The 1 ms count of the 100 MHz reference, in kHz. -/
def State.refCheck (s : State) (khz : Nat) : State :=
  if s.life.refLost then s
  else if khz < 99900 ∨ 100100 < khz then
    let s := (s.setBit Reg.CLK_REF 0 false).countF Reg.CLK_REF 31 16
    (s.modLife fun l => { l with refLost := true }).raise 0x5203 0 khz
  else s.setBit Reg.CLK_REF 0 true

/-- The reference has been back for 10 ms. -/
def State.refBack (s : State) : State :=
  if !s.life.refLost then s
  else ((s.modLife fun l => { l with refLost := false }).setBit Reg.CLK_REF 0 true).askTrayReset rcRef

/-- PLL i has lost lock: 0 to 3 TCLK, 4 NCLK, 5 PCLK. -/
def State.pllLost (s : State) (i : Nat) : State :=
  let s := (s.setBit Reg.CLK_LOCK (if i = 5 then 8 else i) false).raise 0x5202 i
  if i < 4 then (if s.qstate i = qRun then s.forcePoint0 i else s) else s.askTrayReset rcPll

/-- CLK_SRST written. -/
def State.softReset (s : State) (v : Word) : State :=
  let s := (List.range 2).foldl (fun s i =>
    if v.getLsbD i then
      let s := (s.resetRange (Reg.HBM i 0) 0x10000).freshLimits [0x2046] i
      s.hbmStart i
    else s) s
  let s := if v.getLsbD 2 then
      let s := ({ s.resetRange 0x500000 0x10000 with streams := [], ingest := [] }).orphanTags 148
      (s.freshLimits [0x4004, 0x4005, 0x4007] 0 64).freshLimits [0x3120] 148
    else s
  let s := [1, 2, 3].foldl (fun s k =>
    if v.getLsbD (k + 2) then
      let s := { s with rangers := s.rangers.set Core.rangerReset k { Core.rangerReset with pc := s.evec k, cycle0 := s.nclk } }
      (s.regForget (.ranger (Fin.ofNat 4 k))).freshLimits [0x3120] (144 + k)
    else s) s
  if v &&& 0x3F = 0 then s else s.setCause 9

/-- CLK_TRSTi written. -/
def State.tilesReset (s : State) (i : Nat) (v : Word) : State :=
  let ns := (List.range 32).filter fun j => v.getLsbD j && decide (32 * i + j < 144)
  let s := ns.foldl (fun s j => s.tileReset (32 * i + j)) s
  if ns.isEmpty then s else s.setCause 9

/-! ### Retention (Tables 18-10 and 18-11) -/

/-- The watchdog is disarmed. -/
def State.disarm (s : State) : State :=
  let s := s.voteUse Reg.CLK_WDOG
  s.wrCopies Reg.CLK_WDOG (setFld (s.rd Reg.CLK_WDOG) 0 0 0)

/-- RETAIN is accepted: step 1. -/
def State.retainBegin (s : State) : State :=
  let s := (s.disarm.modLife fun l => { l with t0 := s.now, hbmLost := 0, macLost := false, dirty := false, wake := none }).setLf
    lfRetaining 1
  s.stopBegin svQuiesced 1 1

/-- Every link is held DOWN. -/
def State.linksOff (s : State) : State :=
  (List.range 64).foldl (fun s k =>
    let o := Reg.YARDER k Reg.YARDER_CTRL
    let old := s.rd o
    if old.getLsbD 0 then (s.setBit o 0 false).linkCtrl k old (setFld old 0 0 0) else s) s

/-- Every MAC is disabled. -/
def State.macsOff (s : State) : State := (List.range 6).foldl (fun s k => s.setBit (Reg.MAC_CTRL k) 0 false) s

/-- The shutdown record as it stands now; a controlled power-down loses the contents of all four chips (Table 18-12). -/
def State.writeRecord (s : State) (kind : Nat) : State :=
  if s.pos ≠ 0 then s
  else if s.lf = lfPowerdown then s.putShutdown kind 0xFF 0xF s.life.dirty
  else s.putShutdown kind (s.life.hbmLost.toNat * 4 ^ s.pos) (b2n s.life.macLost * 2 ^ s.pos) s.life.dirty

/-- Are both stacks in self-refresh, or not in a state to enter it. -/
def State.bothInSr (s : State) : Bool := (List.range 2).all fun i => s.hstat i 2 || (s.ctl i).phase != 4

/-- Both stacks are asked into self-refresh. -/
def State.hbmSleep (s : State) : State := (s.srRequest 0 true).srRequest 1 true

/-- The Ranger cores are halted. -/
def State.haltRangers (s : State) : State :=
  (List.finRange 4).foldl (fun s k => s.modCore (.ranger k) fun x => { x with halted := true }) s

/-- Does wake source i stand now: enabled in CLK_WAKE, and past its threshold (R605). -/
def State.wakeHolds (s : State) (i : Nat) : Bool :=
  s.bit Reg.CLK_WAKE i &&
    (i != 3 || decide (s.getF Reg.CLK_WAKE 31 16 ≤ (s.odo - s.life.odoAt).toInt.natAbs)) &&
    (i != 4 || decide (s.rd64 Reg.CLK_WAKE_AT_LO ≤ s.timeNow))

/-- The wake itself (Table 18-11, steps 1 to 4): a record that fails R601 makes it a cold boot. -/
def State.wake (s : State) (src : Nat) : State :=
  let ok := s.pos ≠ 0 ∨ s.recordKept
  if ok then
    let s := { s.blocksReset true with life := { t0 := s.now, tag := s.life.tag, swdogAt := s.now } }
    let s := ((s.released s.life.tag).setBit Reg.CLK_RST_CAUSE 8 true).setBit Reg.INTEG_REPAIR 0 false
    let s := (List.range 4).foldl (fun s q => if s.qstate q = qTripped then s else s.setQstate q qRetained) s
    let s := (((s.wakeNext).srGo 0).srGo 1).setLf lfWaking 4
    s.raise 0x5214 0 src
  else
    let s := (s.dirtyRecord.blocksReset false)
    let s := (List.range 144).foldl (fun s n => s.loseTile n) s
    let s := { s with life := { t0 := s.now, tag := s.life.tag, swdogAt := s.now } }.setBit Reg.CLK_RST_CAUSE 8 false
    (s.initAll.raise 0x5214 0 src).bootFrom s.life.tag

/-- A wake source is recognised: in RETAINED the wake starts, during entry it starts once entry completes (Table 18-7). -/
def State.retentionWake (s : State) (src : Nat) : State :=
  if !s.wakeHolds src then s
  else if s.lf = lfRetained then s.wake src
  else if s.lf = lfRetaining ∧ s.life.wake.isNone then s.modLife fun l => { l with wake := some src }
  else s

/-- The next step of retention entry. -/
def State.retainTick (s : State) : State :=
  match s.lfStep with
  | 1 => if s.svState = svStopping then s else s.setLf lfRetaining 2
  | 2 => (s.portsOffTray.macsOff).setLf lfRetaining 3
  | 3 =>
    let s := s.linksOff
    ((List.range 4).foldl (fun s q =>
      let old := s.rd (Reg.PWR_Q_CTRL q)
      (s.setF (Reg.PWR_Q_CTRL q) 1 0 1).quadRequest q old) s).setLf lfRetaining 4
  | 4 =>
    if (List.range 4).all fun q => s.qstate q == qRetained || s.qstate q == qGated || s.qstate q == qTripped then
      s.hbmSleep.setLf lfRetaining 5
    else s
  | 5 => if s.bothInSr then s.setLf lfRetaining 6 else s
  | 6 => ((s.haltRangers.wr Reg.CLK_RAIL 0x004).wr Reg.CLK_LOCK 0x100).setLf lfRetaining 7
  | _ =>
    let s := (s.writeRecord 2).raise 0x5213 0
    let w := s.life.wake
    let s := (s.modLife fun l => { l with odoAt := s.odo, retAt := s.now, wake := none }).setLf lfRetained 0
    match w with
    | some src => s.wake src
    | none => s

/-- The next step of a wake.  Where the firmware's copy lies in HBM the spec does not say: whether it still has its digest is
drawn (log 81). -/
def State.wakeTick (s : State) : State :=
  if s.life.failed then s
  else
    match s.lfStep with
    | 4 =>
      if (List.range 2).any fun i => s.hstat i 3 then s.bootFail
      else if ((List.range 4).all fun q => s.qstate q == qRun || s.qstate q == qTripped || s.qstate q == qGated) &&
          (List.range 2).all fun i => !s.hstat i 2 then s.setLf lfWaking 5
      else s
    | 5 =>
      let (fw, s) := s.draw 1
      let (b, s) := s.hbmGet (stageBase + 128) (s.plxLen - 128)
      let f := b2n (fw == 0#1) + 2 * b2n (s.plxLen != 0 && sha256 b != (s.dir.drop 56).take 32)
      if f = 0 then s.setLf lfWaking 6 else s.enterRecovery f
    | 6 => s.linksOn.setLf lfWaking 7
    | 7 => s.macsOn.setLf lfWaking 8
    | _ =>
      if s.svState = svBoot then
        let s := s.openOwn
        (if !s.slotOk then s.setSv svMaint else if s.plxLen = 0 then s.setSv svIdle else s.wakeStart)
      else if s.svState = svStarting then s else s.bootDone

/-! ### Controlled power-down (Table 18-12) -/

/-- A controlled power-down is accepted, with the KIND of its record: 1 OFF, 4 FAULT. -/
def State.powerDown (s : State) (kind : Nat) : State :=
  if s.lf = lfPowerdown ∨ s.lf = lfInputLoss then s
  else
    let s := (s.disarm.modLife fun l => { l with t0 := s.now, kind := kind, hbmLost := 3, macLost := true, dirty := false }).setLf
      lfPowerdown 1
    s.stopBegin svIdle 3 2

/-- Every rail goes off: everything volatile is lost. -/
def State.railsOff (s : State) : State :=
  let s := (List.range 4).foldl (fun s q => (s.quadLost q).setQstate q qGated) s
  let s := ((s.stackLost 0).stackLost 1).linksOff.macsOff
  let s := { s with hbmCtl := [] }
  ((s.haltRangers.wr Reg.CLK_RAIL 0).wr Reg.CLK_LOCK 0).wr (Reg.HBM 0 Reg.HBM_STAT) 0 |>.wr (Reg.HBM 1 Reg.HBM_STAT) 0

/-- The tray's input is turned off. -/
def State.turnOff (s : State) : State := (s.emit .inputOff).modLife fun l => { l with off := true }

/-- The next step of a controlled power-down. -/
def State.powerTick (s : State) : State :=
  match s.lfStep with
  | 1 => if s.svState = svStopping then s else s.setLf lfPowerdown 3
  | 3 => (s.opsecWrite.writeRecord s.life.kind).setLf lfPowerdown 4
  | 4 => (s.portsOffTray.hbmSleep).setLf lfPowerdown 5
  | 5 => if s.bothInSr then s.setLf lfPowerdown 6 else s
  | 6 => ((List.range 4).foldl (fun s q => (s.quadLost q).setQstate q qGated) s).setLf lfPowerdown 7
  | 7 => s.railsOff.setLf lfPowerdown 8
  | _ => if s.life.off then s else s.turnOff

/-! ### Loss of input (Tables 18-7 and 18-13) -/

/-- Steps 5 and 6: record, rails off, input off. -/
def State.lossFinish (s : State) (dirty : Bool) : State :=
  let s := if s.pos = 0 then s.putShutdown 3 0xFF 0xF dirty else s
  (s.railsOff.setLf lfInputLoss 6).turnOff

/-- Steps 2 and 3: PoE off, OP0 with the issue limit, streams disabled, fans at 30 %. -/
def State.shed' (s : State) : State :=
  let on := (List.range 64).filter fun n => s.bit (Reg.STR n 0) 0
  let fans := (List.range 4).map fun f => s.getF (Reg.MGMT_FAN f) 7 0
  let old := s.rd Reg.CLK_LIFE
  let pse := s.panel.pse
  let s := s.portsOffTray
  let s := s.runQuads.foldl (fun s q => s.forcePoint0 q) s
  let s := on.foldl (fun s n => (s.setBit (Reg.STR n 0) 0 false).strCtrl n true) s
  let s := if s.pos = 0 then (List.range 4).foldl (fun s f => s.setF (Reg.MGMT_FAN f) 7 0 30) s else s
  (s.modLife fun l => { l with t0 := s.now, shed := true, streams := on, fans := fans, pse := pse, before := old }).setLf lfInputLoss 4

/-- INPUT_LOSS, or withdrawal of the tray (R608, R34), with the input voltage in 0.1 V; it comes by MFP23, and is not
seen while that pin is not connected to it (R701). -/
def State.inputLoss (s : State) (v : Nat) : State :=
  if s.life.off ∨ s.lf = lfInputLoss ∨ !s.pinIs 23 1 then s
  else
    let s := s.raise 0x5210 0 v
    if s.lf = lfRetained then
      let s := s.modLife fun l => { l with dirty := true }
      ((s.writeRecord 2).railsOff).turnOff
    else if s.lf = lfPowerdown then s.lossFinish false
    else if s.lf = lfRetaining then s.lossFinish true
    else s.shed'

/-- Ride-through (R609). -/
def State.rideThrough (s : State) : State :=
  if s.lf ≠ lfInputLoss ∨ s.life.off then s
  else
    let l := s.life
    let us := (s.now - l.t0) / 1000
    let s := (s.modLife fun l => { l with shed := false, streams := [], fans := [] }).wr Reg.CLK_LIFE l.before
    let s := if s.pos = 0 then l.fans.zipIdx.foldl (fun s p => s.setF (Reg.MGMT_FAN p.2) 7 0 p.1) s else s
    let s := l.streams.foldl (fun s n => (s.setBit (Reg.STR n 0) 0 true).strCtrl n false) s
    let s := if l.pse then s.portsOn else s
    s.raise 0x5211 0 (us % 2 ^ 32)

/-- t0 + 10 ms without the input (steps 5 and 6). -/
def State.lossTimeout (s : State) : State :=
  if s.lf = lfInputLoss ∧ !s.life.off then s.lossFinish false else s

/-! ### Rail failures (Table 18-8) -/

/-- Note losses for the record. -/
def State.noteLoss (s : State) (hbm : BitVec 2) (mac : Bool) : State :=
  s.modLife fun l => { l with hbmLost := l.hbmLost ||| hbm, macLost := l.macLost || mac, dirty := true }

/-- A rail fails during power-down or retention entry: 0 I/O, 1 mesh, 2 HBM of a stack, 3 SerDes, 4 Landing, 5 to 8 the
quadrants. -/
def State.railFailure (s : State) (rail stack : Nat) : State :=
  if s.lf ≠ lfPowerdown ∧ s.lf ≠ lfRetaining then s
  else
    let step := s.lfStep
    let inSr := s.hstat 0 2 && s.hstat 1 2
    let on := s.bit Reg.CLK_RAIL rail || (decide (5 ≤ rail) && s.qstate (rail - 5) == qRetained)
    let s := s.setBit Reg.CLK_RAIL rail false
    let s :=
      if 5 ≤ rail then
        if !inSr then ((s.quadLost (rail - 5)).setQstate (rail - 5) qTripped).noteLoss 3 true
        else if s.lf = lfRetaining then ((s.quadLost (rail - 5)).setQstate (rail - 5) qGated).noteLoss 0 true
        else s.quadLost (rail - 5)
      else if rail = 2 then
        if s.bit Reg.CLK_RAIL 0 then
          let s := ((s.stackLost stack).wr (Reg.HBM stack Reg.HBM_STAT) 0).setCtl stack {}
          s.noteLoss (BitVec.ofNat 2 (2 ^ stack)) false
        else s
      else if rail = 0 then s
      else if (List.range 4).any fun q => s.bit Reg.CLK_RAIL (5 + q) then
        let s := (List.range 4).foldl (fun s q => ((s.quadLost q).setQstate q qGated).setBit Reg.CLK_RAIL (5 + q) false) s
        s.noteLoss (if inSr then 0 else 3) true
      else s
    if !on then s
    else
      let f := s.life.hbmLost.toNat + 4 * b2n s.life.macLost + 8 * b2n s.life.dirty
      (s.writeRecord (if s.lf = lfRetaining then 2 else s.life.kind)).raise 0x5212 rail (step + 16 * f)

/-! ### What happens while nothing is commanded -/

/-- The next step of a start (Table 15-4), once the one before is done and the tiles that it needs are awake (log 75), and a
quiesce that waits for it (Table 15-13). -/
def State.serviceTick (s : State) : State :=
  if s.svState ≠ svStarting then s
  else
    match s.svc.todo with
    | [] => s
    | k :: rest =>
      if s.startBusy k then s
      else if !(s.startAsleep k).isEmpty then (s.startAsleep k).foldl (fun s n => s.wakeTile n) s
      else
        let s := (s.modSvc fun v => { v with todo := rest }).startStep k
        if s.svState = svRunning ∧ s.svc.quiesce then s.stopBegin svQuiesced 1 0 else s

/-- The sequences of chapters 15 and 18 take their next step. -/
def State.lifeTick (s : State) : State :=
  if s.life.off then s
  else
    let s := s.serviceTick
    if s.lf = lfBoot then s.bootTick
    else if s.lf = lfRetaining then s.retainTick
    else if s.lf = lfWaking then s.wakeTick
    else if s.lf = lfPowerdown then s.powerTick
    else s

end Sys2Proof.Machine
end

