-- ==== Sys2Proof/Machine/Uart.lean ====
section
/-! DEFINITION. The service UARTs (chapter 22). -/

namespace Sys2Proof.Machine
open Sys2Proof

/-- A register of UART k. -/
def State.ureg (s : State) (k r : Nat) : Word := s.rd (Reg.UART k r)

/-- UARTn_FMT in force (R8). -/
def State.uartFmt (s : State) (k : Nat) : Word := s.inForce (Reg.UART k Reg.UART_FMT)
/-- Data bits n (R680). -/
def State.uartBits (s : State) (k : Nat) : Nat := 5 + fld (s.uartFmt k) 1 0
/-- Parity code: 0 none, 1 even, 2 odd, 3 mark, 4 space. -/
def State.uartParity (s : State) (k : Nat) : Nat := fld (s.uartFmt k) 4 2
/-- Index m of the first stop bit (R680). -/
def State.uartStop (s : State) (k : Nat) : Nat := 1 + s.uartBits k + (if s.uartParity k = 0 then 0 else 1)
/-- DIV in force. -/
def State.uartDiv (s : State) (k : Nat) : Nat := max 1 (fld (s.inForce (Reg.UART k Reg.UART_DIV)) 15 0)

/-- PCLK cycles from the start edge of a character to its stop decision (R683). -/
def State.rxTime (s : State) (k : Nat) : Nat := (16 * s.uartStop k + 8) * s.uartDiv k

/-- Pending values of DIV and FMT come into force between characters (R8, Table 22-4). -/
def State.uartApply (s : State) (k : Nat) : State :=
  let div := Reg.UART k Reg.UART_DIV
  let fmt := Reg.UART k Reg.UART_FMT
  if s.ureg k Reg.PEND &&& 0x1F = 0 then s
  else
    let s := s.modUart k fun u => { u with was := some (s.now, s.inForce div, s.inForce fmt) }
    ((s.apply div).apply fmt).clearPend (Reg.UART k 0) 0x1F

/-- The state whose DIV and FMT hold for a character that ends now: one that began before they last changed keeps the values it
began with (Table 22-4, log 79). -/
def State.rxFormat (s : State) (k : Nat) : State :=
  match (s.uart k).was with
  | none => s
  | some (t, div, fmt) =>
    let put := fun (m : SMap Word) (off : Nat) (v : Word) => m.set (regReset off) off v
    let o := { s with app := put (put s.app (Reg.UART k Reg.UART_DIV) div) (Reg.UART k Reg.UART_FMT) fmt }
    if s.now < t + 10 * o.rxTime k then o else s

/-- The level of the receive line `c` PCLK cycles after the start edge: transitions rise and fall in turn; from the
hand-over of the pin on, the receiver sees mark (Table 22-4). -/
def lineHigh (line : List Nat) (cut : Option Nat) (c : Nat) : Bool :=
  match cut with
  | some x => decide (x ≤ c) || (line.filter fun e => decide (e ≤ c)).length % 2 == 1
  | none => (line.filter fun e => decide (e ≤ c)).length % 2 == 1

/-- What sampling a character gives (R681, R685). -/
structure RxSample where
  /-- the tick that counts as tick 0, and the next bit to sample -/
  base : Nat := 0
  next : Nat := 1
  /-- bits 1 to m as sampled, the latest first -/
  bits : List Bool := []
  /-- the input has read 0 since the start edge -/
  low : Bool := true
  deriving DecidableEq, Repr

/-- One tick of the receiver in a character with first stop bit m: the sample at 16k + 8, and in resync mode a falling
edge recentres the count (R681, R685). -/
def rxTick (hi : Nat → Bool) (m : Nat) (resync : Bool) (r : RxSample) (t : Nat) : RxSample :=
  if m < r.next then r
  else
    let c := t - r.base
    let v := hi t
    let r := { r with low := r.low && !v }
    let r := if c = 16 * r.next + 8 then { r with bits := v :: r.bits, next := r.next + 1 } else r
    let k := (c + 8) / 16
    if resync && hi (t - 1) && !v && decide (1 ≤ k) && decide (k < m) then { r with base := t - 16 * k } else r

/-- Sample a character whose line level at tick t is `hi t`. -/
def rxSample (hi : Nat → Bool) (m : Nat) (resync : Bool) : RxSample :=
  ((List.range (26 * m + 16)).map (· + 1)).foldl (rxTick hi m resync) {}

/-- The parity bit that a format gives data. -/
def parityBit (code data : Nat) : Bool :=
  match code with
  | 1 => popc data 8 % 2 == 1
  | 2 => popc data 8 % 2 == 0
  | 3 => true
  | _ => false

/-- Store an entry, or lose it with the FIFO of 64 full (R687): GLT and OVR mark the next stored one. -/
def State.rxStore (s : State) (k : Nat) (e : Word) : State :=
  let u := s.uart k
  let s := if e.getLsbD 8 then s.count (Reg.UART k Reg.UART_FE_CNT) else s
  let s := if e.getLsbD 9 then s.count (Reg.UART k Reg.UART_PE_CNT) else s
  if 64 ≤ u.rx.length then
    (((s.setUart k { u with ovr := true }).count (Reg.UART k Reg.UART_OVR_CNT)).setBit (Reg.UART k Reg.UART_EV) 4 true).raiseLim
      0x6001 k id
  else
    let e := setFld (setFld e 11 11 (b2n u.ovr)) 12 12 (b2n u.glt)
    s.setUart k { u with rx := u.rx ++ [setFld e 31 31 1], glt := false, ovr := false }

/-- A start edge that fails its centre check (R682). -/
def State.rxGlitch (s : State) (k : Nat) : State :=
  (s.count (Reg.UART k Reg.UART_GLT_CNT)).modUart k fun u => { u with glt := true }

/-- A rate measurement fails (R693): AB stays armed. -/
def State.abFail (s : State) (k reason count : Nat) : State :=
  (s.setBit (Reg.UART k Reg.UART_EV) 3 true).raise 0x6004 k (reason + 2 ^ 16 * (count % 2 ^ 24))

/-- A break is stored as data 0 with BRK and FE, and the receiver waits for the line to return to 1 (R689); an armed
measurement fails (Table 22-4). -/
def State.rxBreak (s : State) (k : Nat) : State :=
  if (s.uart k).inBreak then s
  else
    let s := (s.rxStore k 0x500).modUart k fun u => { u with inBreak := true, limitSeen := false, idle := false }
    if s.getF (Reg.UART k Reg.UART_CTRL) 3 2 = 0 then s else s.abFail k 0 0

/-- Tags and data of a sampled character: bits as sampled from data bit 0, and whether its pin was handed away. -/
def State.rxEntry (s : State) (k : Nat) (bits : List Bool) (pin : Bool) : Word :=
  let n := s.uartBits k
  let d := (bits.take n).foldr (fun b x => 2 * x + b2n b) 0
  let pc := s.uartParity k
  let pe := pc != 0 && bits.getD n false != parityBit pc d
  let fe := pin || !bits.getD (s.uartStop k - 1) true
  BitVec.ofNat 32 (d + 2 ^ 8 * b2n fe + 2 ^ 9 * b2n pe + 2 ^ 13 * b2n pin)

/-- The measuring character of an armed receiver (R692, R693), in the format of `o`: the count from the start edge to the fifth
(0x55) or third (0x0D) falling edge sets DIV, the character is sampled with it, and the three conditions decide. -/
def State.rxMeasure (s o : State) (k : Nat) (line : List Nat) (cut : Option Nat) : State :=
  let ab := s.getF (Reg.UART k Reg.UART_CTRL) 3 2
  let n := if ab = 1 then 8 else 5
  let falls := 0 :: ((List.range (line.length / 2)).map fun i => line.getD (2 * i + 1) 0)
  let last := if ab = 1 then 4 else 2
  if falls.length ≤ last then s
  else
    let c := falls.getD last 0
    let div := (c + 8 * n) / (16 * n)
    let dok := decide (1 ≤ div ∧ div ≤ 65535)
    let d := min 65535 (max 1 div)
    let m := o.uartStop k
    let bits := (List.range m).map fun i =>
      let at' := (c : Int) + (16 * ((i + 1 : Nat) : Int) - 16 * (n : Int) + 8) * (d : Int)
      lineHigh line cut at'.toNat
    let e := o.rxEntry k bits cut.isSome
    let gap := fun (i : Nat) => (falls.getD (i + 1) 0 : Int) - falls.getD i 0
    let near := fun (i num : Nat) => decide ((80 * gap i - 16 * num * c).natAbs ≤ 5 * c)
    let iok := if ab = 1 then (List.range 4).all fun i => decide ((16 * gap i - 4 * c).natAbs ≤ c)
      else near 0 2 && near 1 3
    let want : Nat := if ab = 1 then 0x55 else 0x0D
    let cok := decide (fld e 7 0 = want) && !e.getLsbD 8 && !e.getLsbD 9 && decide (o.uartBits k = 8)
    let s := s.wr (Reg.UART k Reg.UART_AB_CNT) (BitVec.ofNat 32 (c % 2 ^ 24))
    let s := s.rxStore k e
    if !iok then s.abFail k 0 c
    else if !dok then s.abFail k 1 c
    else if !cok then s.abFail k 2 c
    else
      let s := s.wr (Reg.UART k Reg.UART_DIV) (BitVec.ofNat 32 div)
      let s := (s.apply (Reg.UART k Reg.UART_DIV)).clearPend (Reg.UART k 0) 1
      let s := s.setF (Reg.UART k Reg.UART_CTRL) 3 2 0
      (s.setBit (Reg.UART k Reg.UART_EV) 2 true).raise 0x6003 k (div + 2 ^ 16 * (c % 2 ^ 24))

/-- When, in PCLK cycles after a start edge whose character ends now, its pin was handed away; none if it was not. -/
def State.rxCutAt (s : State) (k : Nat) : Option Nat :=
  let start := s.now - s.rxTime k * 10
  match (s.uart k).rxCut with
  | some t => if start < t then some ((t - start) / 10) else none
  | none => none

/-- What a character on the receive line does, in the format of `o` (R681 to R685, R692, R693): its start edge is
centre-checked, its bits are sampled and the entry is stored; a line low throughout is a break. -/
def State.rxTaken (s o : State) (k : Nat) (line : List Nat) : State :=
  let u := s.uart k
  let cut := o.rxCutAt k
  if !s.bit (Reg.UART k Reg.UART_CTRL) 0 || u.inBreak || (s.rxdPin k).isNone && cut.isNone then s
  else
    let hi := fun (t : Nat) => lineHigh line cut (t * o.uartDiv k)
    if hi 8 then s.rxGlitch k
    else
      let s := s.modUart k fun u => { u with idle := false }
      if line.isEmpty && cut.isNone then s.rxBreak k
      else if s.getF (Reg.UART k Reg.UART_CTRL) 3 2 ≠ 0 then s.rxMeasure o k line cut
      else
        let r := rxSample hi (o.uartStop k) ((o.uartFmt k).getLsbD 6)
        if r.low then s.rxBreak k else s.rxStore k (o.rxEntry k r.bits.reverse cut.isSome)

/-- A character arrives on the receive line of UART k; after it, pending values of DIV and FMT may come into force. -/
def State.rxChar (s : State) (k : Nat) (line : List Nat) : State :=
  let s := s.rxTaken (s.rxFormat k) k line
  if (s.uart k).sh.isSome then s else s.uartApply k

/-- The line returns to 1 after a break of so many sixteenths of a bit (R689). -/
def State.rxBreakEnd (s : State) (k len : Nat) : State :=
  let u := s.uart k
  if !u.inBreak then s
  else
    let l := min len 0xFFFF
    let s := if l = 0xFFFF ∧ !u.limitSeen then s.raise 0x6006 k else s
    let s := s.setUart k { u with inBreak := false, limitSeen := false, idle := false }
    let s := s.wr (Reg.UART k Reg.UART_BRKLEN) (BitVec.ofNat 32 l)
    (s.setBit (Reg.UART k Reg.UART_EV) 1 true).raise 0x6002 k l

/-- The length of a break reaches 0xFFFF: event 0x6006, once (R689). -/
def State.rxBreakLimit (s : State) (k : Nat) : State :=
  let u := s.uart k
  if u.inBreak && !u.limitSeen then (s.setUart k { u with limitSeen := true }).raise 0x6006 k else s

/-- The line has been idle for one character time (R691). -/
def State.rxIdle (s : State) (k : Nat) : State :=
  let u := s.uart k
  if u.idle || u.inBreak then s
  else (s.setUart k { u with idle := true }).setBit (Reg.UART k Reg.UART_EV) 0 true

/-- A read of UARTn_RX removes and returns the oldest entry (R688). -/
def State.rxTake (s : State) (k : Nat) : Word × State :=
  match (s.uart k).rx with
  | [] => (0, s)
  | e :: r => (e, s.modUart k fun u => { u with rx := r })

/-- The transmitter of UART k, between characters, starts what waits: a break, or the next character of its FIFO while it is
enabled (R680, R690). -/
def State.txGo (s : State) (k : Nat) : State :=
  if (s.uart k).sh.isSome || (s.uart k).breakUntil.isSome then s
  else
    let s := s.uartApply k
    let u := s.uart k
    match u.brk, u.tx with
    | some bits, _ =>
      let s := s.setUart k { u with brk := none, breakUntil := some (s.now + 160 * (bits + 1) * s.uartDiv k) }
      if s.txdOn k then s.emit (.uartBreak k bits) else s
    | none, c :: r => if s.bit (Reg.UART k Reg.UART_CTRL) 1 then s.setUart k { u with tx := r, sh := some (c, s.now) } else s
    | none, [] => s

/-- A write of UARTn_TX (R688, R698). -/
def State.txPut (s : State) (k : Nat) (b : Byte) : State :=
  let u := s.uart k
  if 64 ≤ u.tx.length then (s.setBit (Reg.UART k Reg.UART_EV) 5 true).raiseLim 0x6005 k id
  else (s.setUart k { u with tx := u.tx ++ [b] }).txGo k

/-- The last stop bit of the character being sent ends (R680).  A character whose pad was handed away meanwhile is completed
without a pad and sets TX_CUT (Table 22-4). -/
def State.txSend (s : State) (k : Nat) : State :=
  let u := s.uart k
  match u.sh with
  | none => s
  | some (c, start) =>
    let cut := match u.txCut with | some t => decide (start ≤ t) | none => false
    let s := s.setUart k { u with sh := none }
    let s := if cut then s.setBit (Reg.UART k Reg.UART_STAT) 19 true else s
    let s :=
      if s.txdOn k && !cut then
        s.emit (.uartChar k (c &&& BitVec.ofNat 8 (2 ^ s.uartBits k - 1)) (fld (s.uartFmt k) 5 0))
      else s
    let s := if u.tx.isEmpty then s.setBit (Reg.UART k Reg.UART_EV) 6 true else s
    s.txGo k

/-- Is a break of UART k, or its mark, being sent or about to be (UARTn_BRK.SENDING). -/
def State.breakOn (s : State) (k : Nat) : Bool := (s.uart k).brk.isSome || (s.uart k).breakUntil.isSome

/-- UARTn_BRK (R690): BITS, where 0 is stored as 1, and SEND. -/
def State.brkWrite (s : State) (k : Nat) (v : Word) : State :=
  let bits := max 1 (fld v 15 0)
  let s := s.wr (Reg.UART k Reg.UART_BRK) (BitVec.ofNat 32 bits)
  if v.getLsbD 16 && !s.breakOn k then (s.modUart k fun u => { u with brk := some bits }).txGo k else s

/-- What time brings: the trailing mark of a break ends, and between characters pending values come into force. -/
def State.uartTime (s : State) : State :=
  (List.range 2).foldl (fun s k =>
    let s := match (s.uart k).breakUntil with
      | some t => if t ≤ s.now then s.modUart k fun u => { u with breakUntil := none } else s
      | none => s
    (if (s.uart k).sh.isSome then s else s.uartApply k).txGo k) s

/-- The value stored for a written DIV, FMT or CTRL (chapter 22, Registers). -/
def uartNorm (r : Nat) (v : Word) : Word :=
  if r = Reg.UART_DIV then if fld v 15 0 = 0 then setFld v 15 0 1 else v
  else if r = Reg.UART_FMT then if 5 ≤ fld v 4 2 then setFld v 4 2 0 else v
  else if r = Reg.UART_CTRL then if fld v 3 2 = 3 then setFld v 3 2 0 else v
  else v

/-- UARTn_CTRL written: its flush bits (R688, R696), and the transmitter may go on. -/
def State.uartFlush (s : State) (k : Nat) (v : Word) : State :=
  (s.modUart k fun u => { u with
    rx := (if v.getLsbD 4 then [] else u.rx), tx := (if v.getLsbD 5 then [] else u.tx) }).txGo k

/-- UARTn_STAT and UARTn_BRK with their computed fields. -/
def State.uartStat (s : State) (k : Nat) : Word :=
  let u := s.uart k
  let lvl := match s.rxdPin k with | some i => s.pinHigh i | none => true
  s.ureg k Reg.UART_STAT &&& 0x80000 ||| BitVec.ofNat 32 (u.rx.length + 2 ^ 8 * u.tx.length + 2 ^ 16 * b2n u.inBreak +
    2 ^ 17 * b2n (u.sh.isSome || u.breakUntil.isSome) + 2 ^ 18 * b2n lvl)

end Sys2Proof.Machine
end

