-- ==== Sys2Proof/Machine/RegBus.lean ====
section
/-! DEFINITION. Register accesses (chapter 03): who reaches which register, what a read returns and a write does, the
bit aliases, refused accesses, and the refresher that votes the tripled fields. -/

namespace Sys2Proof

/-- The agents of the island: the Scaler, and the boundary scan (DESIGN CHOICE, log 20). -/
def Agent.onIsland : Agent → Bool
  | .scaler | .jtag => true
  | _ => false

end Sys2Proof

namespace Sys2Proof.Machine
open Sys2Proof

/-! ### Reach (R52, R60, R86, R88) -/

/-- The main rails are up, and the bridge of the I/O hub is open: the spec names no rail for either; the model takes those
of the I/O hub and the mesh, CLK_RAIL bits 0 and 1 (DESIGN CHOICE, log 60). -/
def State.railsUp (s : State) : Bool := s.bit Reg.CLK_RAIL 0 && s.bit Reg.CLK_RAIL 1

/-- Is the block instance at `l` reachable for an agent (R88); a chip held in reset after a failed boot has its island alone
(R30). -/
def State.reaches (s : State) (a : Agent) (l : Loc) : Bool :=
  if l.blk.island then a.onIsland || (s.railsUp && !s.life.failed)
  else s.railsUp && !s.life.failed && (l.blk != .tile || s.quadRuns l.inst)

/-- REASON of CHIP_BADACC for an access of `size` bytes at byte `o` of the register space or the bit-alias region to the
register at `off`, if the access is refused (R60, R88, R91). -/
def State.regReason (s : State) (a : Agent) (o size off : Nat) : Option Nat :=
  if o % size ≠ 0 then some 1
  else if size ≠ 4 then some 0
  else match locate off with
    | none => some 2
    | some l => if s.reaches a l then none else some 3

/-- An agent whose access is refused takes an exception when it is a core (R91): a misaligned access is a precise 0x04,
a refused load a precise 0x06, a refused store a deferred 0x06 of the transaction unit (Table 4-6).  The boundary-scan
instruction returns its status bit as 1. -/
def State.regFault (s : State) (a : Agent) (addr reason : Nat) (write : Bool) : State :=
  match a.coreId with
  | none => if a = .jtag then s.emit .scanRefused else s
  | some c =>
    let x := s.core c
    let live := match c with
      | .tile _ => x.task == .running
      | .ranger _ => !x.halted
    let tval := BitVec.ofNat 64 addr
    if reason ≠ 1 ∧ write then s.defer c ⟨0x06, 6, 0, tval⟩
    else if live && x.wait == .none then s.precise c (if reason = 1 then 0x04 else 0x06) tval
    else s

/-! ### The refresher (R68 to R72) -/

/-- The sweep period closes: one event for its repairs (R71). -/
def State.votePeriod (s : State) : State :=
  match s.voteFirst with
  | none => s
  | some (off, low) =>
    { s with voteFirst := none, voteRepairs := 0 }.raise 0x2010 0 (off + 2 ^ 23 * low + 2 ^ 32 * s.voteRepairs)

/-- Bits of one stored copy of a voted register flip.  The register's word stays the majority of its copies, so that every
read and use takes that (R68); `votes` holds by what each copy differs from it. -/
def State.upset (s : State) (h : VoteHit) : State :=
  match locate h.off.toNat with
  | none => s
  | some l =>
    let off := h.off.toNat
    let m := fieldMask l.fields fun f => f.acc == .rwv || f.acc == .rov
    let d := fun (c : Nat) => s.votes.get 0 (4 * off + c) ^^^ (if c = h.copy.val then h.bits &&& m else 0)
    let j := maj3 (d 0) (d 1) (d 2)
    let s := if j = 0 then s else s.wr off (s.rd off ^^^ j)
    { s with votes := [0, 1, 2].foldl (fun (t : SMap Word) c => t.set 0 (4 * off + c) (d c ^^^ j)) s.votes }

/-- Upsets of the copies of voted registers. -/
def State.voteHits (hits : List VoteHit) (s : State) : State := hits.foldl (fun s h => s.upset h) s

/-- A refresher sweep (R70 to R72): the upsets since the last one are voted out; a field repaired in 16 sweeps in a row
raises event 0x2012 once. -/
def State.sweep (s : State) (hits : List VoteHit) : State :=
  let s := State.voteHits hits s.votePeriod
  let offs := (s.votes.map fun p => p.1 / 4).eraseDups
  let (rs, s) := offs.foldl (fun (a : List Repaired × State) off =>
    let (r, s) := a.2.voteReg off
    (a.1 ++ r, s)) ([], s)
  let s := { s with voteRuns := s.voteRuns.filter fun p => decide (16 ≤ p.2) || rs.any fun r => r.key == p.1 }
  let s := rs.foldl (fun s r =>
    let n := s.voteRuns.get 0 r.key + 1
    if 16 < n then s
    else
      let s := { s with voteRuns := s.voteRuns.set 0 r.key n }
      if n = 16 then s.raise 0x2012 r.kind (r.off + 2 ^ 23 * r.low) else s) s
  s.countWrap Reg.CHIP_VOTE_SWEEP

/-! ### What a register reads as -/

/-- IDLE of a block instance (Table 3-5 and each chapter's Registers). -/
def State.blockIdle (s : State) (l : Loc) : Bool :=
  match l.blk with
  | .tile => s.tileIdle l.inst
  | .hbm => s.hbmIdle l.inst
  | .yarder => s.lstate l.inst == lkDown || s.lstate l.inst == lkFailed
  | .yfab => !((List.range 256).any fun w => s.winState w == 2) && !(s.links.any fun p => p.2.lost.isSome)
  | .landing => !((List.range 6).any fun k => s.bit (Reg.MAC_CTRL k) 0)
  | .integ => s.restore.isNone
  | _ => true

/-- CFG_STAT with its computed fields. -/
def State.cfgStat (s : State) (l : Loc) : Word :=
  let v := s.rd (l.base + Reg.CFG_STAT)
  let pend := s.rd (l.base + Reg.PEND) != 0 || s.rd (l.base + Reg.PEND_HI) != 0
  setFld (setFld v 1 1 (b2n (s.blockIdle l))) 2 2 (b2n pend)

/-- CFG_REJECT of block `b`, instance `i`. -/
def State.cfgReject (s : State) (b : Blk) (i : Nat) : Bool := s.bit (b.base + i * b.size + Reg.CFG_STAT) 0

/-- CHIP_REJ_SUM. -/
def State.rejSum (s : State) : Word :=
  let many := fun (b : Blk) => (List.range b.count).any fun i => s.cfgReject b i
  let bits := [s.cfgReject .chip 0, s.cfgReject .clk 0, s.cfgReject .pwr 0, s.cfgReject .therm 0, s.cfgReject .pins 0,
    s.cfgReject .uart 0, s.cfgReject .uart 1, s.cfgReject .tally 0, s.cfgReject .mgmt 0, s.cfgReject .time 0,
    many .tile, s.cfgReject .mesh 0, many .yarder, s.cfgReject .integ 0, s.cfgReject .yfab 0, s.cfgReject .hbm 0,
    s.cfgReject .hbm 1, s.cfgReject .landing 0, s.cfgReject .ranger 0, s.cfgReject .choker 0]
  BitVec.ofNat 32 (bits.zipIdx.foldl (fun n b => n + b2n b.1 * 2 ^ b.2) 0)

/-- The special register `k` of a core as a 64-bit value (chapter 04, Registers); cycle counts from the core's reset. -/
def State.special (s : State) (c : CoreId) (k : Nat) : Dword :=
  let x := s.core c
  match k with
  | 0 => x.pc
  | 1 => x.status
  | 2 => x.cause
  | 3 => x.epc
  | 4 => x.tval
  | 5 => x.phase
  | 6 =>
    match c with
    | .tile n => BitVec.ofNat 64 (s.tclkOf n - x.cycle0)
    | .ranger _ => BitVec.ofNat 64 ((s.nclk - x.cycle0) / 2)
  | _ =>
    match c with
    | .tile n => (x.taskid &&& 0xFFFFFFFFFF) ||| BitVec.ofNat 64 (n.val * 2 ^ 40 + s.chipId * 2 ^ 48)
    | .ranger _ => BitVec.ofNat 64 (0xFF * 2 ^ 40 + s.chipId * 2 ^ 48)

/-- The register of tile n that TILE_DBG_SEL selects: its low and high word. -/
def State.dbgWord (s : State) (n : Fin 144) (hi : Bool) : Word :=
  let sel := s.getF (Reg.TILE n Reg.TILE_DBG_SEL) 6 0
  let e := s.getF (Reg.TILE n Reg.TILE_DBG_SEL) 13 8
  let x := s.core (.tile n)
  let v : Dword :=
    if sel < 32 then x.sreg (BitVec.ofNat 5 sel)
    else if sel < 40 then s.special (.tile n) (sel - 32)
    else if sel < 48 then x.mreg (BitVec.ofNat 3 (sel - 40))
    else if 64 ≤ sel ∧ sel < 96 then ((x.vreg (BitVec.ofNat 5 (sel - 64))).extractLsb' (32 * e) 32).setWidth 64
    else 0
  v.extractLsb' (if hi then 32 else 0) 32

/-- TILE_SP_STAT. -/
def State.spStat (s : State) (n : Nat) : Word :=
  let t := s.tile n
  let waits := (t.regQ.filter fun w => w.rel == Reg.TILE_OWNER && w.write.isSome).length
  BitVec.ofNat 32 (b2n (!t.handovers.isEmpty) + 2 * min 7 waits + 16 * t.gb.length) |||
    (s.rd (Reg.TILE n Reg.TILE_SP_STAT) &&& 0x300)

/-- What register `rel` of tile n reads as. -/
def State.tileReg (s : State) (n : Fin 144) (rel : Nat) (v : Word) : Word :=
  if rel = Reg.TILE_SP_STAT then s.spStat n
  else if rel = Reg.TILE_TASK_STAT then setFld v 2 0 (s.tile n).core.task.code
  else if rel = Reg.TILE_EV_LO then BitVec.ofNat 32 (s.eventBits (.tile n))
  else if rel = Reg.TILE_EV_HI then BitVec.ofNat 32 (s.eventBits (.tile n) / 2 ^ 32)
  else if rel = Reg.TILE_DBG_LO then s.dbgWord n false
  else if rel = Reg.TILE_DBG_HI then s.dbgWord n true
  else if rel = Reg.TILE_SKQ_STAT then s.skStat n
  else v

/-- RANGER_NQ: the oldest notice of core k. -/
def State.nqWord (s : State) (k : Nat) : Word :=
  match s.notices.get [] k with
  | [] => 0
  | x :: _ => BitVec.ofNat 32 (x % 2 ^ 11 + 2 ^ 31)

/-- What the registers of Ranger core k at `r` read as. -/
def State.rangerReg (s : State) (k : Fin 4) (r : Nat) (v : Word) : Word :=
  let x := s.core (.ranger k)
  match r with
  | 0x08 => BitVec.ofNat 32 (s.eventBits (.ranger k))
  | 0x0C => BitVec.ofNat 32 (s.eventBits (.ranger k) / 2 ^ 32)
  | 0x18 => s.nqWord k
  | 0x1C => BitVec.ofNat 32 (b2n x.halted + 2 * b2n x.exc + 4 * b2n x.mode)
  | _ => v

/-- What the registers of the Choker read as. -/
def State.chokerReg (s : State) (off : Nat) (v : Word) : Word :=
  let num := fun (n : Nat) => BitVec.ofNat 32 n
  if off = Reg.CHOKER_FREE then num (131072 - s.tagList.length)
  else if off = Reg.CHOKER_ORPHAN_TOT then num (s.tagList.filter fun p => p.2.orphan).length
  else if off = Reg.CHOKER_RSV_HELD then
    num (s.held 148 + 2 ^ 16 * (s.held 144 + s.held 145 + s.held 146 + s.held 147))
  else if Reg.CHOKER_HELD 0 ≤ off ∧ off ≤ Reg.CHOKER_HELD 143 then num (s.held ((off - Reg.CHOKER_HELD 0) / 4))
  else if Reg.CHOKER_ORPHAN 0 ≤ off ∧ off ≤ Reg.CHOKER_ORPHAN 143 then num (s.orphans ((off - Reg.CHOKER_ORPHAN 0) / 4))
  else v

/-- INTEG registers with their computed values; LOG1 and LOG2 are the agent's latches. -/
def State.integReg (s : State) (a : Agent) (off : Nat) (v : Word) : Word :=
  if off = Reg.INTEG_LOG0 then (match s.errLog with | [] => 0 | e :: _ => e.l0 ||| 0x80000000)
  else if off = Reg.INTEG_LOG1 then s.latches.get 0 (a.index * 8 + 1)
  else if off = Reg.INTEG_LOG2 then s.latches.get 0 (a.index * 8 + 2)
  else if off = Reg.INTEG_RQ then s.rqWord
  else if off = Reg.INTEG_MH_STATE_LO then s.mhState false
  else if off = Reg.INTEG_MH_STATE_HI then s.mhState true
  else if off = Reg.INTEG_MH_CNT0 then BitVec.ofNat 32 (s.mhCnt.corr.toNat + 2 ^ 16 * s.mhCnt.fail.toNat)
  else if off = Reg.INTEG_MH_CNT1 then BitVec.ofNat 32 (s.mhCnt.ce.toNat + 2 ^ 16 * s.mhCnt.ue.toNat)
  else if off = Reg.INTEG_SPARE then s.spareWord
  else v

/-- The sampled live value of the register at `off` for an agent, without the effects of a read: what an alias read sees
(R74, R84). -/
def State.peek (s : State) (a : Agent) (off : Nat) : Word :=
  let v := s.rd off
  match locate off with
  | none => 0
  | some l =>
    if l.rel = Reg.CFG_STAT then s.cfgStat l
    else match l.blk with
      | .chip => if off = Reg.CHIP_REJ_SUM then s.rejSum else v
      | .pins => if off = Reg.PINS_GPIO_IN then s.gpioIn else v
      | .uart =>
        if l.rel = Reg.UART_RX then (s.rxTake l.inst).1
        else if l.rel = Reg.UART_STAT then s.uartStat l.inst
        else if l.rel = Reg.UART_BRK then setFld v 17 17 (b2n (s.breakOn l.inst))
        else v
      | .tally =>
        if Reg.TALLY_RAISE_CODE ≤ off ∧ off ≤ Reg.TALLY_RAISE_HI then s.staged a ((off - Reg.TALLY_RAISE_CODE) / 4)
        else if Reg.TALLY_REC ≤ off ∧ off < Reg.TALLY_REC + 0x4000 then
          s.tallyWord ((off - Reg.TALLY_REC) / 16) ((off - Reg.TALLY_REC) / 4 % 4)
        else if Reg.TALLY_ORIG ≤ off ∧ off < Reg.TALLY_ORIG + 0x1000 then s.tallyOrig ((off - Reg.TALLY_ORIG) / 4)
        else v
      | .integ => s.integReg a off v
      | .time =>
        if off = Reg.TIME_NOW_LO then BitVec.ofNat 32 s.timeNow
        else if off = Reg.TIME_NOW_HI then BitVec.ofNat 32 (s.timeNow / 2 ^ 32)
        else if off = Reg.TIME_ODO_LO then s.odo.extractLsb' 0 32
        else if off = Reg.TIME_ODO_HI then s.odo.extractLsb' 32 32
        else v
      | .tile => if h : l.inst < 144 then s.tileReg ⟨l.inst, h⟩ l.rel v else v
      | .yfab =>
        if Reg.YFAB_PEER 0 ≤ off ∧ off ≤ Reg.YFAB_PEER 255 then
          BitVec.ofNat 32 (s.group ((off - Reg.YFAB_PEER 0) / 4)).length
        else v
      | .ranger =>
        if h : 0x100 ≤ l.rel ∧ l.rel < 0x200 then s.rangerReg ⟨(l.rel - 0x100) / 0x40, by omega⟩ (l.rel % 0x40) v else v
      | .choker => s.chokerReg off v
      | _ => v

/-- The low halves of the 64-bit pairs whose high half is latched (R63, R64). -/
def pairLow (off : Nat) : Bool :=
  off == Reg.TIME_NOW_LO || off == Reg.TIME_ODO_LO || off == Reg.CHIP_UID_LO ||
  (List.range 2).any (fun i => off == Reg.HBM i Reg.HBM_ID_LO) ||
  (List.range 64).any (fun k => off == Reg.YARDER k Reg.YARDER_UID_LO)

/-- A full read of the register at `off`: the word, and the state after the effects of the read (R63, R69, R84, R619, R622,
R688, and the notice queues of chapter 15); `rewritten` says whether a word that the error log names has been rewritten
since (R626). -/
def State.readReg (s : State) (a : Agent) (off : Nat) (rewritten : Bool) : Word × State :=
  let v := s.peek a off
  if pairLow off then (v, { s with latches := s.latches.set 0 (a.index * 8) (s.peek a (off + 4)) })
  else if 4 ≤ off ∧ pairLow (off - 4) then (s.latches.get 0 (a.index * 8), s)
  else if off = Reg.INTEG_LOG0 then s.logTake a rewritten
  else if off = Reg.INTEG_RQ then s.rqTake
  else if off = Reg.UART 0 Reg.UART_RX then s.rxTake 0
  else if off = Reg.UART 1 Reg.UART_RX then s.rxTake 1
  else match (List.range 4).find? fun k => off == Reg.RANGER k 0x18 with
    | some k => (v, { s with notices := s.notices.set [] k ((s.notices.get [] k).drop 1) }.postHeld k)
    | none => (v, s.voteUse off)

/-! ### Writing a register -/

/-- The value that a written word is stored as, where a table of limits says so. -/
def State.regNorm (s : State) (l : Loc) (off : Nat) (v : Word) : Word :=
  let zero1 := fun (hi lo : Nat) => if fld v hi lo = 0 then setFld v hi lo 1 else v
  match l.blk with
  | .pwr =>
    if off = Reg.PWR_CTRL then zero1 31 16
    else if off = Reg.PWR_CRU_CFG then zero1 4 0
    else v
  | .pins => if off = Reg.PINS_HANDOVER then setFld v 6 0 (max 1 (min 100 (fld v 6 0))) else v
  | .uart => uartNorm l.rel v
  | .integ =>
    if off = Reg.INTEG_MSCRUB then setFld v 15 0 (max 10 (fld v 15 0))
    else if off = Reg.INTEG_RESTORE_TO then zero1 15 0
    else v
  | .tile =>
    if l.rel = Reg.TILE_SCRUB_CFG then zero1 15 0
    else if l.rel = Reg.TILE_FE_TIMEOUT ∨ l.rel = Reg.TILE_WAIT_TIMEOUT then setFld v 19 0 (min 1000000 (fld v 19 0))
    else v
  | .yfab =>
    if off = Reg.YFAB_CTRL then (if 10000 < fld v 13 0 then setFld v 13 0 (s.getF off 13 0) else zero1 13 0) else v
  | .hbm =>
    if l.rel = Reg.HBM_PATROL then zero1 7 0
    else if l.rel = Reg.HBM_CTRL ∧ (l.inst = 1 ∨ fld v 1 0 = 3) then setFld v 1 0 (s.getF off 1 0)
    else v
  | .landing => if 0x1000 ≤ l.rel ∧ l.rel % 64 = 0x28 then frameTo v else v
  | _ => v

/-- Write the debug window of a STOPPED tile: half of the selected register; s0, m0, pc, cycle and task id do not change
(chapter 10, TILE_DBG_LO). -/
def State.dbgPut (s : State) (n : Fin 144) (hi : Bool) (v : Word) : State :=
  let sel := s.getF (Reg.TILE n Reg.TILE_DBG_SEL) 6 0
  let e := s.getF (Reg.TILE n Reg.TILE_DBG_SEL) 13 8
  let d : Dword := setFld ((s.dbgWord n true ++ s.dbgWord n false : BitVec 64)) (if hi then 63 else 31) (if hi then 32 else 0) v.toNat
  s.modCore (.tile n) fun x =>
    if sel < 32 then x.setS (BitVec.ofNat 5 sel) d
    else if sel = 33 then { x with status := (x.status &&& 0x40) ||| (d &&& 0x3E) }
    else if sel = 34 then { x with cause := d &&& 0xFFFF0FFF }
    else if sel = 35 then { x with epc := d }
    else if sel = 36 then { x with tval := d }
    else if sel = 37 then { x with phase := d &&& 0xF }
    else if 40 ≤ sel ∧ sel < 48 then x.setM (BitVec.ofNat 3 (sel - 40)) d
    else if 64 ≤ sel ∧ sel < 96 ∧ !hi then
      let r := BitVec.ofNat 5 (sel - 64)
      x.setV r (setFld (x.vreg r) (32 * e + 31) (32 * e) v.toNat)
    else x

/-- TILE_TASK_CTRL written: STOP is served first, then GO, which a gated tile holds (R114 to R117, R526). -/
def State.taskCtrl (s : State) (a : Agent) (n : Fin 144) (v : Word) : State :=
  let s := if v.getLsbD 2 then s.taskStop n else s
  if !v.getLsbD 0 then s
  else if s.gated n then
    (s.modTile n fun t => { t with heldWrites := t.heldWrites ++
      [{ agent := a, rel := Reg.TILE_TASK_CTRL, write := some v }] }).wakeTile n
  else s.taskGo n (v.getLsbD 1)

/-- A gated tile holds a write, accepted at once for its agent (R527). -/
def State.heldPut (s : State) (a : Agent) (n rel : Nat) (v : Word) (bit : Option Nat) : State :=
  s.modTile n fun t => { t with heldWrites := t.heldWrites ++ [{ agent := a, rel := rel, write := some v, bit := bit }] }

/-- A write of `v` to register `rel` of the TILE block of tile n that is not a plain store; `none` where it is. -/
def State.tileWrite (s : State) (a : Agent) (n : Fin 144) (l : Loc) (v : Word) (bit : Option Nat) : Option State :=
  let rel := l.rel
  let off := Reg.TILE n rel
  let c : CoreId := .tile n
  if heldRel rel then some (if s.gated n then s.heldPut a n rel v none else s.configWrite a n rel v)
  else if rel = Reg.TILE_TASK_CTRL then some ((s.regStore l off v bit).taskCtrl a n v)
  else if rel = Reg.TILE_EV_LO then some ((s.setEvents c v.toNat).poll c)
  else if rel = Reg.TILE_EV_HI then some ((s.setEvents c (v.toNat % 2 ^ 24 * 2 ^ 32)).poll c)
  else if rel = Reg.TILE_EVCLR_LO then some (s.clearEvents c v.toNat)
  else if rel = Reg.TILE_EVCLR_HI then some (s.clearEvents c (v.toNat % 2 ^ 24 * 2 ^ 32))
  else if rel = Reg.TILE_DBG_LO then some (s.dbgPut n false v)
  else if rel = Reg.TILE_DBG_HI then some (s.dbgPut n true v)
  else if rel = Reg.TILE_SKQ_CTRL then
    let s := (bitsSet v.toNat 8).foldl (fun s q => s.skRestart n q) s
    some (((bitsSet (v.toNat / 256) 8).foldl (fun s q => s.skSkip n q) s).pollTile n)
  else if 0x400 ≤ rel ∧ rel < 0x480 ∧ rel % 16 = 4 ∧ (fld v 3 0 = 0 ∨ 8 < fld v 3 0) then some (s.configDiscard n rel v)
  else none

/-- A write to CHOKER_QUOTAn that would overfill the pool is discarded with event 0x3122 (R399). -/
def State.quotaSet (s : State) (n : Nat) (v : Word) : State :=
  let q := fld v 16 0
  let rest := (List.range 144).foldl (fun t j => if j = n then t else t + s.getF (Reg.CHOKER_QUOTA j) 16 0) 0
  if 131072 < rest + q + 2048 then s.raise 0x3122 n q else s.wr (Reg.CHOKER_QUOTA n) (BitVec.ofNat 32 q)

/-! ### Effects of a write -/

/-- A write of `v` to a register that is not a plain store, so that nothing else of the write remains; `none` where it
is a store. -/
def State.regSpecial (s : State) (a : Agent) (l : Loc) (off : Nat) (v : Word) (bit : Option Nat) : Option State :=
  match l.blk with
  | .therm => if off = Reg.THERM_TRIP then some (s.tripClear v) else none
  | .pins =>
    if Reg.PINS_CFG 0 ≤ off ∧ off ≤ Reg.PINS_CFG 31 then some (s.pinWrite ((off - Reg.PINS_CFG 0) / 4) v) else none
  | .uart =>
    if l.rel = Reg.UART_TX then some (s.txPut l.inst (v.extractLsb' 0 8))
    else if l.rel = Reg.UART_BRK then some (s.brkWrite l.inst v)
    else none
  | .tally =>
    if off = Reg.TALLY_CTRL then some (s.tallyCtrl v)
    else if Reg.TALLY_RAISE_CODE ≤ off ∧ off ≤ Reg.TALLY_RAISE_HI then
      some (s.stage a ((off - Reg.TALLY_RAISE_CODE) / 4) v)
    else none
  | .integ => if off = Reg.INTEG_REP_MAP then some (s.repMapWrite v) else none
  | .mgmt =>
    if off = Reg.MGMT_POE_BUDGET then some (s.poeBudgetWrite v)
    else match (List.range 4).find? fun k => off == Reg.MGMT_PORT_CTRL k with
      | some k =>
        let (x, s) := s.draw 32
        some (s.portCtrl k v x)
      | none => none
  | .time => if off = Reg.TIME_CTRL then some (s.timeCtrl v) else none
  | .tile => if h : l.inst < 144 then s.tileWrite a ⟨l.inst, h⟩ l v bit else none
  | .yfab => if 0x1000 ≤ l.rel ∧ l.rel < 0x3000 then some (s.winWrite ((l.rel - 0x1000) / 32) (l.rel % 32) v) else none
  | .ranger =>
    if h : 0x100 ≤ l.rel ∧ l.rel < 0x200 then
      let c : CoreId := .ranger ⟨(l.rel - 0x100) / 0x40, by omega⟩
      let hi := v.toNat % 2 ^ 24 * 2 ^ 32
      match l.rel % 0x40 with
      | 0x08 => some ((s.setEvents c v.toNat).poll c)
      | 0x0C => some ((s.setEvents c hi).poll c)
      | 0x10 => some (s.clearEvents c v.toNat)
      | 0x14 => some (s.clearEvents c hi)
      | _ => none
    else none
  | .choker =>
    if Reg.CHOKER_QUOTA 0 ≤ off ∧ off ≤ Reg.CHOKER_QUOTA 143 then some (s.quotaSet ((off - Reg.CHOKER_QUOTA 0) / 4) v)
    else none
  | _ => none

/-- What follows once a written word is stored; `old` is the register before. -/
def State.regAfter (s : State) (l : Loc) (off : Nat) (old v : Word) : State :=
  match l.blk with
  | .chip =>
    if off = Reg.CHIP_CTRL then
      let s := if v.getLsbD 0 then s.wr Reg.CHIP_VOTE_CNT 0 else s
      if v.getLsbD 1 then s.sweep [] else s
    else s
  | .clk =>
    if off = Reg.CLK_SSC then s.sscWritten
    else if off = Reg.CLK_WDOG then s.wdogWrite old
    else if off = Reg.CLK_WDOG_KICK then s.wdogKick v
    else if off = Reg.CLK_SWDOG then s.swdogKick v
    else if off = Reg.CLK_SRST then s.softReset v
    else if Reg.CLK_TRST 0 ≤ off ∧ off ≤ Reg.CLK_TRST 4 then s.tilesReset ((off - Reg.CLK_TRST 0) / 4) v
    else s
  | .pwr =>
    if off = Reg.PWR_FIXED then (if v.getLsbD 12 then { s with cap := { s.cap with ack := true } } else s)
    else if Reg.PWR_TWAKE 0 ≤ off ∧ off ≤ Reg.PWR_TWAKE 4 then s.twake ((off - Reg.PWR_TWAKE 0) / 4) v
    else if off = Reg.PWR_ALERT then (if v.getLsbD 3 then s.alertAcked else s)
    else match (List.range 4).find? fun q => off == Reg.PWR_Q_CTRL q with
      | some q => s.quadRequest q old
      | none => s
  | .uart => if l.rel = Reg.UART_CTRL then s.uartFlush l.inst v else s
  | .pins => if off = Reg.PINS_GPIO_OUT ∨ off = Reg.PINS_GPIO_OE then s.padsFollow else s
  | .integ =>
    if off = Reg.INTEG_CTRL then (if v.getLsbD 1 then s.integClear else s)
    else if off = Reg.INTEG_RST_CTL then (if v.getLsbD 24 then (s.restoreStart v).restoreAsk else s)
    else if off = Reg.INTEG_REPAIR then (if v.getLsbD 1 then s.repairLock else s)
    else s
  | .mgmt => if off = Reg.MGMT_BLZ_CMD then s.blzGo v else s
  | .yarder => if l.rel = Reg.YARDER_CTRL then s.linkCtrl l.inst old v else s
  | .hbm => if l.rel = Reg.HBM_CTRL then s.hbmCtrl l.inst v else s
  | .landing =>
    if 0x1000 ≤ l.rel ∧ l.rel < 0x2000 then
      let n := (l.rel - 0x1000) / 64
      if l.rel % 64 = 0 then s.strCtrl n (old.getLsbD 0)
      else if l.rel % 64 = 0x2C then s.strRelease n v
      else if s.bit (Reg.STR n 0) 0 then s else s.strApply n
    else s
  | _ => s

/-- A full write of `v` to the register at `off`, which the agent reaches: a write that would change a class Q field of a
busy block is discarded (R77), as is one outside the ranges of its block; fields that do not exist take nothing (R92).
`bit`: the write is an alias write of that bit, made into a full write. -/
def State.regWrite (s : State) (a : Agent) (off : Nat) (v : Word) (bit : Option Nat := none) : State :=
  match locate off with
  | none => s
  | some l =>
    let old := s.peek a off
    let v := s.regNorm l off v
    let q := fieldMask l.fields fun f => f.cls == .q
    let m := fieldMask l.fields fun f => f.acc == .rw || f.acc == .rwv
    let nv := (old &&& ~~~m) ||| (v &&& m)
    if (v ^^^ old) &&& q != 0 && !s.blockIdle l then s.discardQ off v
    else
      let out := match l.blk with
        | .pwr | .therm => s.pwrDiscard off nv v
        | .clk => s.clkDiscard off nv v
        | _ => none
      match out with
      | some s => s
      | none =>
        match s.regSpecial a l off v bit with
        | some s => s
        | none => (s.regStore l off v bit).regAfter l off old v

/-- The field that holds bit `b` of the register at a location. -/
def Loc.fieldAt (l : Loc) (b : Nat) : Option RField := l.fields.find? fun f => decide (f.lo ≤ b ∧ b ≤ f.hi)

/-- A write to an alias word (R74, R75, Table 3-2) as one full write: the other RW bits keep their values, every other
action bit is 0.  Where R77 discards it, event 0x2021 reports that full word as the written value (DESIGN CHOICE, log 61).  A
gated tile holds it as a write of the bit, so that the read-modify-write is one step after the wake. -/
def State.aliasPut (s : State) (a : Agent) (off b : Nat) (v : Word) : State :=
  match locate off with
  | none => s
  | some l =>
    let m := fieldMask l.fields fun f => f.acc == .rw || f.acc == .rwv
    let keep := s.peek a off &&& m
    match l.fieldAt b with
    | none => s
    | some f =>
      match f.acc with
      | .rw | .rwv =>
        let w := setFld keep b b (b2n (v.getLsbD 0))
        let q := fieldMask l.fields fun f => f.cls == .q
        if l.blk == .tile && s.gated l.inst && heldRel l.rel && ((w ^^^ keep) &&& q == 0 || s.blockIdle l) then
          s.heldPut a l.inst l.rel (v &&& 1) (some b)
        else s.regWrite a off w (some b)
      | .w1c | .w1s | .wo => if v.getLsbD 0 then s.regWrite a off (setFld keep b b 1) (some b) else s
      | .ro | .rov => s

/-- A read of an alias word (R74): the bit, and the state after the vote of the register (R69). -/
def State.aliasGet (s : State) (a : Agent) (off b : Nat) : Word × State :=
  (BitVec.ofNat 32 (b2n ((s.peek a off).getLsbD b)), s.voteUse off)

/-! ### Outstanding accesses (R65, R80, R81, R332) -/

/-- The accesses of an agent that wait at TILE blocks. -/
def State.regWaits (s : State) (a : Agent) : List RegAcc := s.tiles.flatMap fun p => p.2.regQ.filter fun w => w.agent == a

/-- A further read (`write` false) or write of the agent stalls: its one read, or its four writes, are outstanding (R65). -/
def State.regStall (s : State) (a : Agent) (write : Bool) : Bool :=
  let ws := s.regWaits a
  if write then decide (4 ≤ (ws.filter fun w => w.write.isSome).length) else ws.any fun w => w.write.isNone

/-- An access of an agent to the TILE block of tile n waits: behind an earlier access of the agent that waits there (R80,
R81), a read behind a write of the agent that the gated tile holds, and a TILE_OWNER write behind another handover. -/
def State.regBehind (s : State) (n : Nat) (w : RegAcc) : Bool :=
  let t := s.tile n
  (t.regQ.any fun x => x.agent == w.agent) || (w.write.isNone && t.heldWrites.any fun x => x.agent == w.agent && heldRel x.rel) ||
    (w.rel == Reg.TILE_OWNER && w.write.isSome && s.ownerBusy n)

/-- The access `w` at the register at `off`, if it has to wait: it joins the TILE block's queue. -/
def State.regWait (s : State) (off : Nat) (w : RegAcc) : Option State :=
  match locate off with
  | none => none
  | some l =>
    if l.blk == .tile && s.regBehind l.inst { w with rel := l.rel } then some (s.regHold l.inst { w with rel := l.rel })
    else none

/-- An agent's write of `v` to the register at `off`, or to the alias word of its bit `bit`, reaches the block: it takes
effect, or waits. -/
def State.busWrite (s : State) (a : Agent) (off : Nat) (v : Word) (bit : Option Nat := none) : State :=
  match s.regWait off { agent := a, rel := 0, write := some v, bit := bit } with
  | some s => s
  | none => match bit with
    | some b => s.aliasPut a off b v
    | none => s.regWrite a off v

/-- An agent's read of the register at `off`, or of the alias word of its bit `bit`, for the load `load` of its core: the
word and the state after it; or the state in which it waits. -/
def State.busRead (s : State) (a : Agent) (off : Nat) (bit : Option Nat := none) (load : Option (Nat × Dst) := none)
    (rewritten : Bool := false) : Except State (Word × State) :=
  match s.regWait off { agent := a, rel := 0, write := none, bit := bit, load := load } with
  | some s => .error s
  | none => .ok (match bit with
    | some b => s.aliasGet a off b
    | none => s.readReg a off rewritten)

/-- An access that has waited takes effect; a load of a core completes. -/
def State.regTake (s : State) (n : Nat) (w : RegAcc) : State :=
  let off := Reg.TILE n w.rel
  match w.write, w.bit with
  | some v, none => s.regWrite w.agent off v
  | some v, some b => s.aliasPut w.agent off b v
  | none, bit =>
    let (x, s) := match bit with
      | some b => s.aliasGet w.agent off b
      | none => s.readReg w.agent off false
    match w.load, w.agent.coreId with
    | some (g, dst), some c =>
      if (s.core c).wait = .reg then s.completeWait c dst g (leBytes 4 x.toNat) false false else s
    | _, _ => s

/-- The accesses that wait at tile n are looked at again, in order of arrival, each once. -/
def State.regDrain (s : State) (n : Nat) : State :=
  let q := (s.tile n).regQ
  if q.isEmpty then s
  else
    q.foldl (fun s w => if s.regBehind n w then s.regHold n w else s.regTake n w)
      (s.modTile n fun t => { t with regQ := [] })

/-! ### Accesses of an agent -/

/-- Global address of byte `o` of the register space of the agent's own chip. -/
def State.regAddr (s : State) (o : Nat) : Nat := s.chipId * 2 ^ 40 + 0x1C00000000 + o

/-- Local address of the alias word of a bit (R73). -/
def aliasAddr (off b : Nat) : Nat := 0x1D00000000 + off * 32 + b * 4

/-- An agent writes the register at `off`, 4 bytes: judged, then written (R60, R65, R88, R90, R91); an agent that has its
share of accesses outstanding stalls, and nothing happens.  A chip whose supply is off takes no access. -/
def State.agentWrite (s : State) (a : Agent) (off : Nat) (v : Word) : State :=
  if s.life.off then s
  else match s.regReason a off 4 off with
    | some r => (s.regRefused a.index off true r false).regFault a (s.regAddr off) r true
    | none => if s.regStall a true then s else s.busWrite a off v

/-- The runtime writes the register at `off` (R66): refused, or written. -/
def State.runtimeWrite (s : State) (off : Nat) (v : Word) : Option Nat × State :=
  match s.regReason (.ranger 0) off 4 off with
  | some r => (some r, s.regRefused 144 off true r false)
  | none => (none, s.busWrite (.ranger 0) off v)

/-- The next register write of the start in progress: at a tile it waits for the wake, and for the handover and the accesses
before it to end. -/
def State.actsGo (s : State) : State :=
  match s.svc.acts with
  | [] => s
  | (off, v) :: rest =>
    let n := (off - Reg.TILE 0 0) / 0x1000
    if !(s.tile n).handovers.isEmpty || !(s.tile n).regQ.isEmpty || s.gated n then s.wakeTile n
    else (s.modSvc fun v => { v with acts := rest }).runtimeWrite off v |>.2

/-- An agent reads the register at `off` (R63, R90). -/
def State.agentRead (s : State) (a : Agent) (off : Nat) (rewritten : Bool := false) : State :=
  if s.life.off then s
  else match s.regReason a off 4 off with
    | some r => (s.regRefused a.index off false r false).regFault a (s.regAddr off) r false
    | none =>
      if s.regStall a false then s
      else match s.busRead a off none none rewritten with
        | .ok r => r.2
        | .error s => s

/-- An agent writes the alias word of bit `b` of the register at `off`. -/
def State.agentAlias (s : State) (a : Agent) (off b : Nat) (v : Word) : State :=
  let o := off * 32 + b * 4
  let reg := o / 128 * 4
  if s.life.off then s
  else match s.regReason a o 4 reg with
    | some r => (s.regRefused a.index reg true r true).regFault a (s.chipId * 2 ^ 40 + aliasAddr off b) r true
    | none => if s.regStall a true then s else s.busWrite a reg v (some (o % 128 / 4))

end Sys2Proof.Machine
end

