-- ==== Sys2Proof/Machine/Mem.lean ====
section
/-! DEFINITION. Loads, stores and fetches of a core (R106 to R113, R752, Table 4-3), the transactions they become, the
way of a request through the mesh, and the delivery of its response. -/

namespace Sys2Proof.Machine
open Sys2Proof

/-! ### Regions -/

/-- The register that an address of the register space or the bit-alias region belongs to: byte of the region, register
offset, and whether it is an alias. -/
def regByte (a : Nat) : Option (Nat × Nat × Bool) :=
  if 0x1C00000000 ≤ a ∧ a < 0x1C00800000 then some (a - 0x1C00000000, a - 0x1C00000000, false)
  else if 0x1D00000000 ≤ a ∧ a < 0x1D10000000 then
    some (a - 0x1D00000000, (a - 0x1D00000000) / 128 * 4, true)
  else none

/-- May core `c` use debug windows (Table 4-3). -/
def State.mayDebug (s : State) (c : CoreId) : Bool := c.isRanger || (s.core c).dbg

/-- A register access of core `c` that its own chip refuses by size or alignment is recorded (R91). -/
def State.noteReg (s : State) (c : CoreId) (a : Nat) (write : Bool) (reason : Nat) : State :=
  match s.localAddr a with
  | none => s
  | some l => match regByte l with
    | some (_, off, al) => s.regRefused c.index off write reason al
    | none => s

/-- Checks 1 to 4 of R752 on a load or store of `len` bytes at `a`: the 48-bit address and region; or the cause. -/
def State.judgeAccess (s : State) (c : CoreId) (a : Dword) (len : Nat) (vec store : Bool) : Except Nat (Nat × Region) × State :=
  let g := a.toNat
  let size := if vec then 64 else len
  if 2 ^ 48 ≤ g then (.error 0x05, s)
  else if g % size ≠ 0 then (.error 0x04, s.noteReg c g store 1)
  else
    let r := regionAt (g % 2 ^ 40) len
    let ok := (.ok (g, r), s)
    match r with
    | .none => (.error 0x05, s)
    | .hbm | .sp _ => ok
    | .dbg _ _ => if vec || len != 8 || !s.mayDebug c then (.error 0x05, s) else ok
    | .regs | .aliasBits => if vec || len != 4 then (.error 0x06, s.noteReg c g store 0) else ok
    | .sram => if vec then (.error 0x05, s) else ok
    | .rom | .flash => if vec || store then (.error 0x05, s) else ok

/-! ### Issue and fetch -/

/-- Core `c` may issue an instruction. -/
def State.coreRuns (s : State) (c : CoreId) : Bool :=
  let x := s.core c
  !s.life.off && !s.life.failed && s.railsUp && x.wait == .none &&
    (match c with
     | .tile n => x.task == .running && s.quadRuns n
     | .ranger _ => !x.halted)

/-- Does a background SP.FILL or SP.COPY of tile n use the bank of word w (R194). -/
def State.spopHolds (s : State) (n w : Nat) : Bool :=
  match (s.tile n).spop with
  | none => false
  | some o =>
    (List.range (o.len / 64)).any fun i =>
      s.spWord n (o.dst + 64 * i) / 1024 == w / 1024 ||
        (match o.copy with | some (src, _) => s.spWord n (src + 64 * i) / 1024 == w / 1024 | none => false)

/-- An access of tile n's own sequencer to word w waits: banks being initialised, a handover, or a background
operation. -/
def State.seqStall (s : State) (n w : Nat) : Bool := s.initBusy n || s.handoverHolds n w oSeq || s.spopHolds n w

/-- Core `c` needs `k` tags at once: with too few left under its limit it waits, and the wait is counted once (R395). -/
def State.quotaHolds (s : State) (c : CoreId) (k : Nat) : Option State :=
  if s.held c.index + k ≤ s.tagLimit c.index then none
  else if (s.core c).quotaWait then some s
  else some ((s.quotaStall c.index).modCore c fun x => { x with quotaWait := true })

/-- Do `k` transactions of core `c` wait on a full quota, if they are needed at all: the state then; or the core no longer
counted as one that waits. -/
def State.quotaGate (s : State) (c : CoreId) (need : Bool) (k : Nat) : Except State State :=
  if !need then .ok s
  else match s.quotaHolds c k with
    | some s => .error s
    | none => .ok (if (s.core c).quotaWait then s.modCore c fun x => { x with quotaWait := false } else s)

/-! ### Transactions of a core -/

/-- A line enters the instruction cache of a core, which holds 256 of 64 bytes. -/
def State.cacheLine (s : State) (c : CoreId) (line : Nat) : State :=
  s.modCore c fun x => { x with icache := (line :: x.icache.filter (· != line)).take 256 }

/-- The tile that holds a cache which serves core `c` (R342). -/
def State.hasCache (s : State) : CoreId → Option Nat
  | .tile n => if (s.cacheBanks n).isEmpty then none else some n.val
  | .ranger _ => none

/-- A precise exception that a response reports: ENGINE 6 (R119). -/
def State.preciseBy (s : State) (c : CoreId) (code : Nat) (tval : Dword) : State :=
  let s := s.modCore c fun x => { x with wait := .none }
  (s.takeExc c (causeWord code false 6 0) (s.core c).pc tval).flushDeferred c

/-- Core `c` starts a load that leaves the tile, under one tag, and waits for its data (R111, R113). -/
def State.sendLoad (s : State) (c : CoreId) (g len : Nat) (dst : Dst) : State :=
  match s.quotaGate c true 1 with
  | .error s => s
  | .ok s =>
    let (tag, s) := s.sendTxn { agent := c.index, origin := .load, addr := g, op := .read len }
    s.modCore c fun x => { x with wait := .resp tag g dst }

/-- Posted stores of a core that have not completed. -/
def State.posted (s : State) (c : CoreId) : Nat :=
  (s.tagList.filter fun p => p.2.agent == c.index && p.2.origin == .store && !p.2.orphan).length

/-- Core `c` posts a store of runs of bytes, each within one 64-byte word, that leaves the tile under one tag: at most 8 are
outstanding (R111, R113). -/
def State.sendStore (s : State) (c : CoreId) (g : Nat) (segs : List (Nat × List Byte)) : State :=
  if 8 ≤ s.posted c then s
  else match s.quotaGate c true 1 with
    | .error s => s
    | .ok s => (s.sendTxn { agent := c.index, origin := .store, addr := g, op := .write segs }).2.retire c

/-! ### Accesses through the cache of the tile (R341 to R344, R354) -/

/-- The fetch of an instruction line has brought it: it enters the instruction cache, and the instruction is to be issued
anew, after what the boundary before it brings. -/
def State.fetched (s : State) (c : CoreId) (line : Nat) : State :=
  ((s.cacheLine c line).modCore c fun x => { x with wait := .none }).boundary c

/-- The cause of a fetch that its target refuses: an address it does not serve makes the fetch refused (Table 4-6), the other
causes stay (log 71). -/
def fetchCause (cause : Nat) : Nat := if cause = 0x05 then 0x02 else cause

/-- A cached access of tile n is done, once the cache holds its lines: bytes for lines whose fill was poisoned go to HBM as a
posted store of their own. -/
def State.fillEnd (s : State) (n : Fin 144) (job : Fill) : State :=
  let c := CoreId.tile n
  match job.goal with
  | .load len dst =>
    s.completeWait c dst job.addr (((job.lines.flatMap fun a => s.cacheBytes n a).drop (job.loc % 64)).take len) false false
  | .fetch => s.fetched c (job.addr / 64 * 64)
  | .store segs =>
    let (raw, put) := segs.partition fun x => job.raw.contains ((job.loc + x.1) / 64)
    if raw ≠ [] ∧ (8 ≤ s.posted c ∨ !s.mayIssue n) then s.modCore c fun x => { x with wait := .fill { job with tag := none } }
    else
      let s := put.foldl (fun s x => s.cacheMerge n ((job.loc + x.1) / 64) ((job.loc + x.1) % 64) x.2) s
      let s := if raw = [] then s
        else (s.sendTxn { agent := n, origin := .store, addr := job.addr, op := .write raw }).2
      s.retire c

/-- Tags that the fill of line `a` needs: its own, and one for a dirty line that it replaces. -/
def State.fillTags (s : State) (n a : Nat) : Nat := 1 + b2n (s.cacheEvicts n a).isSome

/-- The fill of line `a` leaves the tile. -/
def State.fillSend (s : State) (n : Fin 144) (job : Fill) (a : Nat) : State :=
  let (tag, s) := s.sendTxn { agent := n, origin := .fill, addr := 0xFF * 2 ^ 40 + a * 64, op := .read 64 }
  s.modCore (.tile n) fun x => { x with wait := .fill { job with tag := some tag } }

/-- A cached access of tile n begins: every line it touches is looked up; one that hits all of them is done, and another waits
for its fills, one after the other. -/
def State.cacheGo (s : State) (n : Fin 144) (job : Fill) : State :=
  let look := fun (s : State) => job.lines.foldl (fun s a => s.cacheLook n a) s
  if s.cacheBusy n then s
  else match job.lines.find? fun a => (s.cacheFind n a).isNone with
    | none => (look s).fillEnd n job
    | some a =>
      match s.quotaGate (.tile n) true (s.fillTags n a) with
      | .error s => s
      | .ok s => (look s).fillSend n job a

/-- The cached access that tile n waits in goes on: its next fill, or its end.  Where a handover has taken the cache away
meanwhile, the instruction is to be issued anew. -/
def State.fillGo (s : State) (n : Fin 144) : State :=
  match (s.core (.tile n)).wait with
  | .fill job =>
    if job.tag.isSome then s
    else if (s.cacheBanks n).isEmpty then (s.modCore (.tile n) fun x => { x with wait := .none }).boundary (.tile n)
    else if s.cacheBusy n then s
    else match job.lines.find? fun a => (s.cacheFind n a).isNone && !job.raw.contains a with
      | none => s.fillEnd n job
      | some a => if s.held n + s.fillTags n a ≤ s.tagLimit n then s.fillSend n job a else s
  | _ => s

/-- The answer to a fill: a poisoned line is not allocated, and ends a load with 0x08 and a fetch with 0x03 (R354). -/
def State.fillBack (s : State) (n : Fin 144) (job : Fill) (a : Nat) (r : Resp) : State :=
  let c := CoreId.tile n
  let next := fun (job : Fill) (s : State) =>
    (s.modCore c fun x => { x with wait := .fill { job with tag := none } }).fillGo n
  match r with
  | .data bs false _ => next job (s.cachePut n a bs)
  | .data _ true _ =>
    match job.goal with
    | .load _ dst => s.completeWait c dst job.addr [] true false
    | .fetch => (s.modCore c fun x => { x with wait := .none }).precise c 0x03 (BitVec.ofNat 64 job.addr)
    | .store _ => next { job with raw := a :: job.raw } s
  | .refused e =>
    match job.goal with
    | .load .. => s.preciseBy c e (BitVec.ofNat 64 job.addr)
    | .fetch => s.preciseBy c (fetchCause e) (BitVec.ofNat 64 job.addr)
    | .store _ => (s.retire c).defer c ⟨e, 6, 0, BitVec.ofNat 64 job.addr⟩
  | _ => s

/-! ### Issue and fetch -/

/-- The outcome of the fetch of the present instruction. -/
inductive Fetch where
  | ok (s : State)
  /-- it waits: for its tile's scratchpad, for a tag, or for the line it has asked for -/
  | wait (s : State)
  | fault (code : Nat) (s : State)

/-- The fetch of a line leaves the tile of core `c` under a tag (R113, R395). -/
def State.fetchSend (s : State) (c : CoreId) (pc : Nat) : State :=
  match s.quotaGate c true 1 with
  | .error s => s
  | .ok s =>
    let (tag, s) := s.sendTxn { agent := c.index, origin := .fetch, addr := pc / 64 * 64, op := .read 64 }
    s.modCore c fun x => { x with wait := .fetch (pc / 64 * 64) tag }

/-- Fetch of the line of `pc` on a miss of the instruction cache, by region (Table 4-3, R752; log 71): own scratchpad and what
the I/O hub holds for a Ranger core at once, HBM through the tile's cache where it has one, all else by a request. -/
def State.fetchLine (s : State) (c : CoreId) (pc : Nat) : Fetch :=
  match regionAt (pc % 2 ^ 40) 4, s.localAddr pc with
  | .sp m, some a =>
    if c.index = m then
      let w := s.spWord m (a % 2 ^ 20)
      let s := s.ownerUse m
      if s.seqStall m w then .wait s
      else if s.ownerOf m w ≠ oSeq then .fault 0x07 (s.refuseAt m (a % 2 ^ 20) rqSeq)
      else
        let (_, p, s) := (s.gbClean m w).readWord m w rqSeq
        if p then .fault 0x03 s else .ok s
    else .wait (s.fetchSend c pc)
  | .hbm, some a =>
    match s.hasCache c, c with
    | some _, .tile n =>
      match s.cacheFind n (a / 64) with
      | some _ => if s.cacheBusy n then .wait s else .ok (s.cacheLook n (a / 64))
      | none => .wait (s.cacheGo n { addr := pc, loc := a, goal := .fetch, lines := [a / 64] })
    | _, _ => .wait (s.fetchSend c pc)
  | .sp _, none => .wait (s.fetchSend c pc)
  | .hbm, none => .wait (s.fetchSend c pc)
  | .sram, some _ => if c.isRanger then .ok s else .fault 0x02 s
  | .rom, some _ => if c.isRanger then .ok s else .fault 0x02 s
  | .flash, some _ => if c.isRanger then .ok s else .fault 0x02 s
  | _, _ => .fault 0x02 s

/-- Fetch at pc (R106, R752, Table 4-3), through the instruction cache. -/
def State.fetch (s : State) (c : CoreId) : Fetch :=
  let pc := (s.core c).pc.toNat
  let line := pc / 64 * 64
  if 2 ^ 48 ≤ pc ∨ pc % 4 ≠ 0 then .fault 0x02 s
  else if (s.core c).icache.contains line then .ok (s.cacheLine c line)
  else match s.fetchLine c pc with
    | .ok s => .ok (s.cacheLine c line)
    | r => r

/-- Core `c` issues the instruction at its pc, whose effect is `f`: where the core does not run, or the fetch waits,
nothing else happens; a refused or poisoned fetch raises its exception. -/
def State.issue (s : State) (c : CoreId) (f : State → State) : State :=
  if s.coreRuns c then
    match s.fetch c with
    | .ok s => f s
    | .wait s => s
    | .fault code s => s.precise c code (s.core c).pc
  else s

/-! ### Loads -/

/-- The four words of a VLD from the own scratchpad (R339, R150): gather-buffer entries are written back first. -/
def State.vectorRead (s : State) (n o : Nat) : List Byte × Bool × State :=
  (List.range 4).foldl (fun (a : List Byte × Bool × State) i =>
    let (bs, p, s) := a
    let w := s.spWord n (o + 64 * i)
    let (b, q, s) := (s.gbClean n w).readWord n w rqVec
    (bs ++ b, p || q, s)) ([], false, s)

/-- A load of core `c` from its own tile's scratchpad (R327, R331, R337). -/
def State.ownLoad (s : State) (c : CoreId) (n g len : Nat) (vec : Bool) (dst : Dst) : State :=
  let o := g % 2 ^ 20
  let os := (List.range (if vec then 4 else 1)).map fun i => o + 64 * i
  if os.any fun x => s.seqStall n (s.spWord n x) then s
  else
    let s := s.ownerUse n
    match os.find? fun x => s.ownerOf n (s.spWord n x) != oSeq with
    | some x => (s.refuseAt n x (if vec then rqVec else rqSeq)).precise c 0x07 (BitVec.ofNat 64 g)
    | none =>
      let (bs, p, s) := if vec then s.vectorRead n o else s.gbRead n (s.spWord n o) (o % 64) len rqSeq
      s.completeWait c dst g bs p false

/-- A read of what the I/O hub holds: island SRAM, boot ROM or the flash window. -/
def State.hubRead (s : State) (la len : Nat) : List Byte :=
  match regionAt la 1 with
  | .sram => s.sram.getMany 0 (la - 0x1E00000000) len
  | .rom => (List.range len).map fun i => Config.romByte (la - 0x1E00100000 + i)
  | .flash => s.flash.getMany 0xFF (la - 0x1F00000000) len
  | _ => []

/-- The HBM lines that an access of `len` bytes at local address `a` touches. -/
def linesOf (a len : Nat) : List Nat := (List.range ((a % 64 + len + 63) / 64)).map fun i => a / 64 + i

/-- A load of core `c`: `len` bytes at `a` for `dst` (R110, R147, R148, R752). -/
def State.coreLoad (s : State) (c : CoreId) (a : Dword) (len : Nat) (vec : Bool) (dst : Dst) : State :=
  match s.judgeAccess c a len vec false with
  | (.error e, s) => s.precise c e a
  | (.ok (g, r), s) =>
    match s.localAddr g with
    | none => s.sendLoad c g len dst
    | some la =>
      let done := fun (bs : List Byte) (s : State) => s.completeWait c dst g bs false false
      match r with
      | .sp n => if c.index = n then s.ownLoad c n g len vec dst else s.sendLoad c g len dst
      | .hbm =>
        match s.hasCache c, c with
        | some _, .tile n => s.cacheGo n { addr := g, loc := la, goal := .load len dst, lines := linesOf la len }
        | _, _ => s.sendLoad c g len dst
      | .dbg n m =>
        if c.index = n then
          match s.dbgRead n m (la % 2 ^ 16) with
          | (some v, s) => done (leBytes 8 v.toNat) s
          | (none, s) => s.precise c 0x14 a
        else s.sendLoad c g len dst
      | .regs | .aliasBits =>
        match regByte la with
        | none => s
        | some (o, off, al) =>
          match s.regReason c.agent o 4 off with
          | some reason => (s.regRefused c.index off false reason al).preciseBy c 0x06 a
          | none =>
            let (x, s) := s.draw 1
            match s.busRead c.agent off (if al then some (o % 128 / 4) else none) (some (g, dst)) (x == 1#1) with
            | .ok (v, s) => done (leBytes 4 v.toNat) s
            | .error s => s.modCore c fun x => { x with wait := .reg }
      | .sram | .rom | .flash => if c.isRanger then done (s.hubRead la len) s else s.sendLoad c g len dst
      | .none => s.precise c 0x05 a

/-! ### Stores -/

/-- The runs of bytes that a VST writes: the elements of `d` whose bit of `m` is 1, each run within one 64-byte word. -/
def maskRuns (m : Dword) (d : BitVec 2048) : Nat → List (Nat × List Byte) → List (Nat × List Byte)
  | 0, acc => acc
  | k + 1, acc =>
    let i := 63 - k
    if m.getLsbD i then
      let b := leBytes 4 (d.extractLsb' (32 * i) 32).toNat
      match acc with
      | (o, bs) :: r =>
        if o + bs.length = 4 * i ∧ i % 16 ≠ 0 then maskRuns m d k ((o, bs ++ b) :: r) else maskRuns m d k ((4 * i, b) :: acc)
      | [] => maskRuns m d k [(4 * i, b)]
    else maskRuns m d k acc

/-- A store of runs of bytes into the own scratchpad (R331, R336): refused whole, as a deferred 0x07.  A VST writes back and
drops the gather-buffer entry of each of its four words first (R339). -/
def State.ownStore (s : State) (c : CoreId) (n g : Nat) (vec : Bool) (segs : List (Nat × List Byte)) : State :=
  let o := g % 2 ^ 20
  let os := segs.map fun x => o + x.1
  if os.any fun x => s.seqStall n (s.spWord n x) then s
  else
    let s := s.ownerUse n
    match os.find? fun x => s.ownerOf n (s.spWord n x) != oSeq with
    | some x =>
      ((s.refuseAt n x (if vec then rqVec else rqSeq)).retire c).defer c ⟨0x07, 5, 0, BitVec.ofNat 64 g⟩
    | none =>
      let s := if vec then (List.range 4).foldl (fun s i => s.gbFlush n (s.spWord n (o + 64 * i))) s else s
      let put := fun (s : State) (x : Nat × List Byte) =>
        let w := s.spWord n (o + x.1)
        let lo := (o + x.1) % 64
        if vec then s.mergeWord n w rqVec (enables lo x.2.length) (placeAt lo x.2) else s.gbWrite n w lo x.2
      (segs.foldl put s).retire c

/-- A store of core `c`: runs of bytes at offsets from `a`, of an access of `len` bytes (R110, R147, R149, R752).  The deferred
0x05 of a store into the own tile's debug window carries ENGINE 0: no code of that field names a macro (DESIGN CHOICE, log
65). -/
def State.coreStore (s : State) (c : CoreId) (a : Dword) (len : Nat) (vec : Bool) (segs : List (Nat × List Byte)) :
    State :=
  match s.judgeAccess c a len vec true with
  | (.error e, s) => if e = 0x06 then (s.retire c).defer c ⟨0x06, 6, 0, a⟩ else s.precise c e a
  | (.ok (g, r), s) =>
    let word := leNat (segs.flatMap (·.2))
    let send := fun (s : State) => if segs.isEmpty then s.retire c else s.sendStore c g segs
    match s.localAddr g with
      | none => send s
      | some la =>
        match r with
        | .sp n => if c.index = n then s.ownStore c n g vec segs else send s
        | .hbm =>
          match s.hasCache c, c with
          | some _, .tile n => s.cacheGo n { addr := g, loc := la, goal := .store segs, lines := linesOf la len }
          | _, _ => send s
        | .dbg n m =>
          if c.index = n then
            match s.dbgWrite n m (la % 2 ^ 16) (BitVec.ofNat 64 word) with
            | some s => s.retire c
            | none => (s.retire c).defer c ⟨0x05, 0, 0, a⟩
          else send s
        | .regs | .aliasBits =>
          match regByte la with
          | none => s
          | some (o, off, al) =>
            match s.regReason c.agent o 4 off with
            | some reason => ((s.regRefused c.index off true reason al).retire c).defer c ⟨0x06, 6, 0, a⟩
            | none =>
              if s.regStall c.agent true then s
              else (s.retire c).busWrite c.agent off (BitVec.ofNat 32 word) (if al then some (o % 128 / 4) else none)
        | .sram =>
          if c.isRanger then
            { s with sram := s.sram.setMany 0 (la - 0x1E00000000) (segs.flatMap fun (x : Nat × List Byte) => x.2) }.retire c
          else send s
        | _ => s.precise c 0x05 a

/-! ### The mesh (R382 to R386) -/

/-- The next router of a packet at router `at'` for router `to`: along its row, then along its column (R383). -/
def nextRouter (at' dst : Nat) : Nat :=
  let (x, y) := (at' % 12, at' / 12)
  if x < dst % 12 then at' + 1
  else if dst % 12 < x then at' - 1
  else if y < dst / 12 then at' + 12
  else if dst / 12 < y then at' - 12
  else at'

/-- The input port by which a packet from router `src` came to router `at'` (event 0x3100): 0 tile, 1 N, 2 E, 3 S, 4 W;
`edge` is the port at the source itself. -/
def inPort (src at' edge : Nat) : Nat :=
  if src / 12 < at' / 12 then 1
  else if at' / 12 < src / 12 then 3
  else if src % 12 < at' % 12 then 4
  else if at' % 12 < src % 12 then 2
  else edge

/-- The port at which a packet enters the mesh at router r: from a tile, from HBM at an edge column, or from the hub. -/
def edgePort (hbm hub : Bool) (r : Nat) : Nat := if hub then 3 else if hbm then (if r % 12 = 0 then 4 else 2) else 0

/-- A router passes on the packet of a transaction, its request or its response, or discards it on a header parity
error (R386).  A request for another chip leaves the mesh at its edge router (Table 12-1); beyond it the packet is the
Yarder's. -/
def State.meshRoute (s : State) (tag : Nat) (parity : Bool) : State :=
  match s.txn tag with
  | none => s
  | some t =>
    let (a, b) := s.routers t.agent t.addr
    let local' := s.localAddr t.addr
    let hbm := (local'.map fun la => decide (la < hbmSize)).getD false
    let hub := (local'.map fun la => match regionAt la 1 with | .sram | .rom | .flash => true | _ => false).getD false
    let way := match t.st with
      | .sent => if t.out then none else some (a, b, edgePort false (decide (144 ≤ t.agent)) a)
      | .answered _ => if local'.isSome then some (b, a, edgePort hbm hub b) else none
      | _ => none
    match way with
    | none => s
    | some (src, dst, edge) =>
      if parity then
        let port := inPort src t.node edge
        let s := s.setTxn tag { t with st := .lost }
        let s := (s.count Reg.MESH_PERR_CNT).wr Reg.MESH_PERR_LAST (BitVec.ofNat 32 (t.node + 2 ^ 8 * port + 2 ^ 31))
        s.raiseLim 0x3100 t.node fun k => port + 2 ^ 32 * k
      else
        let at' := nextRouter t.node dst
        let s := s.setTxn tag { t with node := at' }
        if local'.isNone && at' == dst then s.leaveMesh tag else s

/-- The answer of a target; the response starts from the target's router. -/
def State.answerAt (s : State) (tag : Nat) (t : Txn) (r : Resp) : State :=
  s.setTxn tag { t with st := .answered r, node := (s.routers t.agent t.addr).2 }

/-- A request that has come to a tile's gather buffer is admitted or refused (R327 to R331, R196); it waits behind an
older request of its core to the same bytes, behind initialisation and behind a handover of its bank. -/
def State.spAccess (s : State) (tag : Nat) : State :=
  match s.txn tag with
  | none => s
  | some t =>
    match t.st, s.localAddr t.addr with
    | .sent, some la =>
      match regionAt la 1 with
      | .sp n =>
        let o := la % 2 ^ 20
        let w := s.spWord n o
        if s.olderFirst t || s.spBusy n o t.op then s
        else match s.serveSp n o t.op t.agent rqMesh t.poison with
          | (.resp r, s) => s.answerAt tag t r
          | (.notReady, s) =>
            if t.orphan || t.freed then s.answerAt tag t .retry
            else match s.addWaiter n { agent := t.agent, origin := t.origin, word := w, write := t.op.feData, tag := some tag,
                                       poison := t.poison } with
              | some s => s.setTxn tag { t with st := .held, noticed := true, node := n }
              | none => s.answerAt tag t .retry
      | _ => s
    | _, _ => s

/-- A request that has come to an HBM controller is served (R360, R377). -/
def State.hbmAccess (s : State) (tag : Nat) : State :=
  match s.txn tag with
  | none => s
  | some t =>
    match t.st, s.localAddr t.addr with
    | .sent, some la =>
      if hbmSize ≤ la || s.life.refLost || s.olderFirst t then s
      else
        let (r, s) := s.serveHbm la t.op t.poison
        s.answerAt tag t r
    | _, _ => s

/-- A request that has come to a macro's debug window is served (R242, R243, R527): a read or a write as the row says. -/
def State.dbgAccess (s : State) (tag : Nat) (write : Bool) : State :=
  match s.txn tag with
  | none => s
  | some t =>
    match t.st, s.localAddr t.addr with
    | .sent, some la =>
      match regionAt la 1 with
      | .dbg n m =>
        let answer := fun (r : Resp) (s : State) => s.answerAt tag t r
        match t.op with
        | .read _ =>
          if write || s.olderFirst t then s
          else if !s.reachable n then
            answer (.refused 0x09) (s.refuseUnreachable n (la % 2 ^ 20) t.agent rqMesh la true)
          else match s.dbgRead n m (la % 2 ^ 16) with
            | (some v, s) => answer (.data (leBytes 8 v.toNat) false false) s
            | (none, s) => answer (.refused 0x14) s
        | .write segs =>
          if !write || s.olderFirst t then s
          else if !s.reachable n then
            answer (.refused 0x09) (s.refuseUnreachable n (la % 2 ^ 20) t.agent rqMesh la true)
          else match s.dbgWrite n m (la % 2 ^ 16) (BitVec.ofNat 64 (leNat (segs.flatMap (·.2)))) with
            | some s => answer .ack s
            | none => answer (.refused 0x05) s
        | _ => s
      | _ => s
    | _, _ => s

/-- The I/O hub serves a request of a tile for island SRAM, the boot ROM or the flash window, once it is the oldest of its core
to those bytes (R112). -/
def State.hubServe (s : State) (tag : Nat) : State :=
  match s.txn tag with
  | none => s
  | some t =>
    match t.st, s.localAddr t.addr with
    | .sent, some la =>
      match regionAt la 1 with
      | .sram | .rom | .flash =>
        if s.olderFirst t then s
        else match t.op with
          | .read len => s.answerAt tag t (.data (s.hubRead la len) false false)
          | .write segs =>
            ({ s with sram := segs.foldl (fun (m : SMap Byte) (g : Nat × List Byte) => m.setMany 0 (la - 0x1E00000000 + g.1) g.2) s.sram }).answerAt
              tag t .ack
          | _ => s
      | _ => s
    | _, _ => s

/-- Every request that waits at the I/O hub is served, in order of issue. -/
def State.hubAll (s : State) : State :=
  ((s.txnList.filter fun p => p.2.st == .sent).mergeSort fun a b => decide (a.2.ord ≤ b.2.ord)).foldl
    (fun s p => s.hubServe p.1) s

/-! ### Delivery of a response -/

/-- A response comes to the blocked core that waits for `tag`; `a` is the local address asked for. -/
def State.respondCore (s : State) (c : CoreId) (tag a : Nat) (r : Resp) : State :=
  match (s.core c).wait, c with
  | .resp tg addr dst, _ =>
    if tg ≠ tag then s
    else match r with
      | .data bs p full => s.completeWait c dst addr bs p full
      | .ack => s.completeWait c dst addr [] false false
      | .refused e => s.preciseBy c e (BitVec.ofNat 64 addr)
      | .retry => s.preciseBy c 0x05 (BitVec.ofNat 64 addr)
  | .fe addr w dst tg _ limit, _ =>
    if tg ≠ some tag then s
    else match r with
      | .data bs p full => s.completeWait c dst addr bs p full
      | .ack => s.completeWait c .none addr [] false true
      | .refused e => s.preciseBy c e (BitVec.ofNat 64 addr)
      | .retry => s.modCore c fun x => { x with wait := .fe addr w dst none true limit }
  | .fetch line tg, _ =>
    if tg ≠ tag then s
    else match r with
      | .data _ false _ => s.fetched c line
      | .data _ true _ => (s.modCore c fun x => { x with wait := .none }).precise c 0x03 (s.core c).pc
      | .refused e => s.preciseBy c (fetchCause e) (s.core c).pc
      | _ => s
  | .fill job, .tile n => if job.tag = some tag then s.fillBack n job (a / 64) r else s
  | _, _ => s

/-- The bytes that a response carries, unless it is poisoned or refused. -/
def Resp.clean : Resp → Option (List Byte)
  | .data bs false _ => some bs
  | _ => none

/-- The answer to an engine's outstanding request (R209, R218): of the Bucker (kind 0) and the Chipper (1) the piece is done,
is to be tried again, or fails its operation; of the Feeder (2) and of a restore (3) the source has come, or not. -/
def State.respondEngine (s : State) (n : Fin 144) (kind tag : Nat) (r : Resp) : State :=
  match kind with
  | 0 =>
    match (s.tile n).bucker.head? with
    | none => s
    | some o =>
      if o.tag ≠ some tag then s
      else match r with
        | .refused e =>
          let group := (o.group).getD 0
          (s.closeFail n group e 0 (match o.out.head? with | some p => p.addr | none => 0)).engines n
        | .retry => s.modBop n fun (o : BOp) => { o with tag := none }
        | _ => (s.modBop n fun (o : BOp) => { o.wrote (o.out.drop 1) with tag := none }).closeStep n
  | 1 =>
    match (s.tile n).chipper.head? with
    | none => s
    | some o =>
      if o.tag ≠ some tag then s
      else match r with
        | .refused e => (s.qoutRefused n e (match o.out.head? with | some p => p.addr | none => 0)).engines n
        | .retry => s.modCop n fun (o : COp) => { o with tag := none }
        | _ => (s.modCop n fun (o : COp) => { o with tag := none, out := o.out.drop 1 }).qoutStep n
  | 2 => s.loadRead n tag r.clean
  | _ => s.restoreRead tag r.clean

/-- The core of an agent index. -/
def coreOf (agent : Nat) : Option CoreId :=
  if h : agent < 144 then some (.tile ⟨agent, h⟩)
  else if h : agent - 144 < 4 then some (.ranger ⟨agent - 144, h⟩)
  else none

/-- A response for the requester of a transaction whose tag has been released.  Of a refused eviction nothing is known to the
program: the spec gives it no report (log 69). -/
def State.respond (s : State) (tag : Nat) (t : Txn) (r : Resp) : State :=
  if t.orphan then s
  else if t.origin = .landing then s.stageBack tag r
  else match coreOf t.agent with
    | none => s
    | some c =>
      match t.origin, c with
      | .load, c => s.respondCore c tag (t.addr % 2 ^ 40) r
      | .fetch, c => s.respondCore c tag (t.addr % 2 ^ 40) r
      | .fill, c => s.respondCore c tag (t.addr % 2 ^ 40) r
      | .store, c => match r with
        | .refused e => s.defer c ⟨e, 6, 0, BitVec.ofNat 64 t.asked⟩
        | _ => s
      | .skid q, .tile n => s.skResponse n q r
      | .engine k, .tile n => s.respondEngine n k tag r
      | _, _ => s

/-- A filled line cannot enter the cache yet: the dirty line that it replaces has no tag to go back with, the quota having
been lowered below HELD (R399, R401). -/
def State.fillBlocked (s : State) (t : Txn) : Bool :=
  t.origin == .fill && !t.orphan && decide (s.tagLimit t.agent < s.held t.agent) &&
    (s.cacheEvicts t.agent (t.addr % 2 ^ 40 / 64)).isSome

/-- A response for tag `tag`, which its requester `who` no longer holds, is discarded (R398). -/
def State.lateResponse (s : State) (who tag : Nat) : State := (s.count Reg.CHOKER_LATE).raise 0x3121 who tag

/-- The response to a tag arrives (R395, R398): it releases the tag; one whose tag has been freed is late, with its requester
as the event's source.  A tag whose response is not on its way is left alone; of a response to a tag that no request of this
chip has held, the requester is open (log 33). -/
def State.deliver (s : State) (tag : Nat) : State :=
  let s := s.hubServe tag
  match s.txn tag with
  | some t => match t.st with
    | .answered r =>
      if t.freed then (s.freeTag tag).lateResponse t.agent tag
      else if s.fillBlocked t then s
      else (s.releaseTag tag).respond tag t r
    | _ => s
  | none =>
    let (who, s) := s.draw 8
    s.lateResponse who.toNat tag

/-- The data or refusal of the load, or of the fetch, that core `c` waits for returns (R111). -/
def State.loadReturns (s : State) (c : CoreId) : State :=
  let go := fun (tag : Nat) => if (s.txn tag).isSome then s.deliver tag else s
  match (s.core c).wait with
  | .resp tag _ _ => go tag
  | .fetch _ tag => go tag
  | .fill job => match job.tag, c with
    | some tag, _ => go tag
    | none, .tile n => s.fillGo n
    | none, _ => s
  | .fe _ _ _ (some tag) _ _ => go tag
  | _ => s

/-- A tag held for 1 ms expires (R396), unless its target has answered that it holds the request in a waiter list: that
stops the expiry of the tag for good (R397). -/
def State.tagExpire (s : State) (tag : Nat) : State :=
  match s.txn tag with
  | none => s
  | some t =>
    if t.st = .held ∨ t.noticed ∨ t.freed then s
    else
      let s := ((s.cutTag tag).count Reg.CHOKER_EXPIRED).raiseLim 0x3120 t.agent fun k => t.addr % 2 ^ 48 + 2 ^ 48 * k
      s.respond tag t (.refused 0x0B)

end Sys2Proof.Machine
end

