-- ==== Sys2Proof/Machine/Operands.lean ====
section
/-! DEFINITION. The operand forms of Daxner: words of the formats that a meaning needs as tval, which words are
assigned, immediates, vector lanes (R134 to R140, R155, R177, R756). -/

namespace Sys2Proof.Machine
open Sys2Proof

/-- What a meaning answers. -/
abbrev Out := Host.Outcome State Fault Refusal

/-! ### Words (Table 5-1) -/

/-- A V-format word. -/
def wordV (op fn5 ty : Nat) (msk : BitVec 3) (vs2 vs1 vd : BitVec 5) : Word :=
  BitVec.ofNat 32 (fn5 * 2 ^ 27 + ty * 2 ^ 25 + msk.toNat * 2 ^ 22 + vs2.toNat * 2 ^ 17 + vs1.toNat * 2 ^ 12 +
    vd.toNat * 2 ^ 7 + op)

/-- A T-format word. -/
def wordT (op fn5 imm5 : Nat) (rs2 rs1 rd : BitVec 5) : Word :=
  BitVec.ofNat 32 (imm5 * 2 ^ 27 + fn5 * 2 ^ 22 + rs2.toNat * 2 ^ 17 + rs1.toNat * 2 ^ 12 + rd.toNat * 2 ^ 7 + op)

/-- An I-format word. -/
def wordI (op fn3 imm12 : Nat) (rs1 rd : BitVec 5) : Word :=
  BitVec.ofNat 32 (imm12 * 2 ^ 20 + fn3 * 2 ^ 17 + rs1.toNat * 2 ^ 12 + rd.toNat * 2 ^ 7 + op)

/-- May a VARITH function take an element type (Table 5-10). -/
def varithTypes (fn5 ty : Nat) : Bool :=
  if fn5 ≤ 2 ∨ (5 ≤ fn5 ∧ fn5 ≤ 8) then decide (ty ≤ 2)
  else if fn5 ≤ 4 ∨ (9 ≤ fn5 ∧ fn5 ≤ 12) then decide (ty ≤ 1)
  else if fn5 ≤ 18 then decide (ty = 2)
  else decide (fn5 ≤ 21 ∧ (ty = 0 ∨ ty = 2))

/-- Is a VARITH word assigned (R156, R756, R135). -/
def assignedArith (fn5 ty vs2 vd : Nat) : Bool :=
  varithTypes fn5 ty && (!decide (7 ≤ fn5 ∧ fn5 ≤ 12) || vs2 == 0) && (!decide (19 ≤ fn5) || decide (vd < 8))

/-- Is a VMISC word assigned (R163, R756, Tables 5-12 and 5-13). -/
def assignedMisc (fn5 ty msk vs2 vs1 vd : Nat) : Bool :=
  (if 1 ≤ fn5 ∧ fn5 ≤ 3 then decide (ty ≤ 2) else ty == 0) &&
  (match fn5 with
   | 0 => decide (vs2 ≤ 6)
   | 1 | 2 | 3 | 6 | 9 => vs2 == 0
   | 4 | 5 | 10 => true
   | 7 | 8 => msk == 0
   | 11 => vs1 == 0 && vs2 == 0
   | 12 | 13 | 14 | 15 => msk == 0 && decide (vd < 8 ∧ vs1 < 8 ∧ vs2 < 8)
   | 16 => msk == 0 && vs2 == 0 && decide (vs1 < 8)
   | 17 => msk == 0 && vs2 == 0 && decide (vd < 8)
   | _ => false)

/-- Is a SYSTEM word assigned (Table 5-9). -/
def assignedSystem (fn3 imm rs1 rd : Nat) : Bool :=
  match fn3 with
  | 0 => rs1 == 0 && decide (imm < 8)
  | 1 => rd == 0 && decide (imm < 8)
  | 2 | 6 => rd == 0 && rs1 == 0 && imm == 0
  | 3 | 4 | 5 => rd == 0 && rs1 == 0
  | _ => false

/-- Is a T-format word assigned (R177, Table 6-1). -/
def assignedT (op fn5 imm5 rs2 rs1 rd : Nat) : Bool :=
  let z := fun (a b i : Nat) => a == 0 && b == 0 && decide (imm5 < i)
  match op, fn5 with
  | 0x28, 0 | 0x28, 1 | 0x28, 2 => z rd rs2 1
  | 0x29, 0 | 0x29, 1 | 0x29, 2 | 0x29, 3 | 0x29, 8 => z rd rs2 1
  | 0x29, 4 => z 0 0 1
  | 0x2A, 0 => z 0 0 1
  | 0x2A, 1 => z 0 0 4
  | 0x2A, 8 => z rd 0 2
  | 0x2A, 9 => z 0 rs2 2
  | 0x2A, 10 => z 0 0 2
  | 0x2A, 11 | 0x2A, 12 => z rd 0 1
  | 0x2C, 0 => z 0 rs2 8
  | 0x2C, 1 => z rd rs2 8
  | 0x2C, 4 => z rd rs2 8 && rs1 == 0
  | 0x2C, 5 => z 0 rs2 2
  | 0x2C, 6 | 0x2C, 7 => z rd rs2 16 && rs1 == 0
  | _, _ => false

/-- Is an instruction word assigned: no unassigned opcode, function or type code, no non-zero field that must be 0
(R138, R139).  FE.SET and FE.CLEAR give imm5[0] no form, so all of it must be 0. -/
def assigned (w : Word) : Bool :=
  let f := fun hi lo => fld w hi lo
  match f 6 0 with
  | 0x05 => decide (f 31 22 ≤ 0xE)
  | 0x09 => decide (f 31 22 ≤ 7 ∧ f 31 22 ≠ 3)
  | 0x06 => match f 19 17 with
    | 4 => f 31 26 == 0
    | 5 => f 31 26 == 0 || f 31 26 == 16
    | _ => true
  | 0x0A => decide (f 19 17 ≤ 6)
  | 0x0C => decide (f 9 7 ≤ 3)
  | 0x11 | 0x12 | 0x14 | 0x15 | 0x19 => true
  | 0x18 => f 9 7 != 2 && f 9 7 != 3
  | 0x1A => f 19 17 == 0
  | 0x1C => assignedSystem (f 19 17) (f 31 20) (f 16 12) (f 11 7)
  | 0x21 => assignedArith (f 31 27) (f 26 25) (f 21 17) (f 11 7)
  | 0x22 => assignedMisc (f 31 27) (f 26 25) (f 24 22) (f 21 17) (f 16 12) (f 11 7)
  | 0x28 => assignedT 0x28 (f 26 22) (f 31 27) (f 21 17) (f 16 12) (f 11 7)
  | 0x29 => assignedT 0x29 (f 26 22) (f 31 27) (f 21 17) (f 16 12) (f 11 7)
  | 0x2A => assignedT 0x2A (f 26 22) (f 31 27) (f 21 17) (f 16 12) (f 11 7)
  | 0x2C => assignedT 0x2C (f 26 22) (f 31 27) (f 21 17) (f 16 12) (f 11 7)
  | _ => false

/-! ### Vector lanes (R104, R105, R155) -/

/-- Lane i of width w. -/
def lane (w : Nat) (v : BitVec 2048) (i : Nat) : Nat := (v.toNat >>> (w * i)) % 2 ^ w

/-- A vector whose `n` lanes of width w are f 0, f 1, ... -/
def ofLanes (w n : Nat) (f : Nat → Nat) : BitVec 2048 :=
  BitVec.ofNat 2048 ((List.range n).foldr (fun i a => a * 2 ^ w + f i % 2 ^ w) 0)

/-- Lane width, lane count and fraction bits of element type 0 FP32 or 1 BF16; I32 has the lanes of FP32. -/
def laneBits (ty : BitVec 2) : Nat := if ty = 1 then 16 else 32
/-- Lanes of an element type. -/
def laneCount (ty : BitVec 2) : Nat := if ty = 1 then 128 else 64
/-- Fraction bits of an FP type. -/
def fracBits (ty : BitVec 2) : Nat := if ty = 1 then 7 else 23

/-- Is lane i of an element type governed by a mask bit that is 1 (R105). -/
def laneOn (ty : BitVec 2) (m : Dword) (i : Nat) : Bool := m.getLsbD (if ty = 1 then i / 2 else i)

end Sys2Proof.Machine
end

