-- ==== Sys2Proof/Machine/RegCmds.lean ====
section
/-! DEFINITION. The commands of chapters 01, 03 and 04: registers, the tray, tasks. -/

namespace Sys2Proof.Machine
open Sys2Proof

/-- Set the bits of a written word that a row of the table fixes: those of `one` to 1 and those of `zero` to 0. -/
def fixBits (v : Word) (one zero : List Nat) : Word :=
  zero.foldl (fun v b => setFld v b b 0) (one.foldl (fun v b => setFld v b b 1) v)

/-- Causes that are reported deferred (Table 4-6). -/
def deferredCodes : List Nat :=
  [0x05, 0x06, 0x07, 0x09, 0x0A, 0x0B, 0x10, 0x12, 0x13, 0x15, 0x16, 0x17, 0x18, 0x19]

/-- REGISTER_WRITE (R3 to R9, R60, R77, R88 to R92). -/
def execRegisterWrite (a : Agent) (off : BitVec 23) (v : Word) (s : State) : Out :=
  .next (s.live fun s => s.agentWrite a off.toNat v)

/-- COUNTER_LOW_READ (R63): a read of a low half latches the high half for the reading agent. -/
def execCounterLowRead (a : Agent) (off : BitVec 23) (s : State) : Out :=
  .next (s.live fun s => s.agentRead a off.toNat)

/-- ALIAS_WRITE (R73 to R75, Table 3-2). -/
def execAliasWrite (a : Agent) (off : BitVec 23) (bit : BitVec 5) (v : Word) (s : State) : Out :=
  .next (s.live fun s => s.agentAlias a off.toNat bit.toNat v)

/-- VOTE_SWEEP (R68 to R72): the 1 ms sweep, after the upsets of copies that `hits.before` lists and before those of
`hits.later`, which stand until the next sweep, read or use. -/
def execVoteSweep (hits : VoteHits) (s : State) : Out :=
  .next (s.live fun s => State.voteHits hits.later (s.sweep hits.before))

/-- VOTE_CLR (R69): CHIP_CTRL written with VOTE_CLR 1. -/
def execVoteClr (a : Agent) (s : State) : Out :=
  .next (s.live fun s => s.agentWrite a Reg.CHIP_CTRL 1)

/-- SWEEP_NOW (R70): CHIP_CTRL written with SWEEP_NOW 1. -/
def execSweepNow (a : Agent) (s : State) : Out :=
  .next (s.live fun s => s.agentWrite a Reg.CHIP_CTRL 2)

/-- ENVELOPE_READING (R21 to R24, R28, R29, R31, R32, R560): on chip 0 the inlet sensors and fans are read; two slow
fans or an effective inlet above +70 °C power the tray down.  On chips 1 to 3 the row is what chip 0's island makes of its
reading there: the first of `peers` has the cap that the island leaves this chip (log 46). -/
def execEnvelopeReading (t0 t1 : Option (BitVec 12)) (fans : List (BitVec 8 × BitVec 16 × Bool)) (peers : List
    (BitVec 8 × BitVec 8 × BitVec 16)) (s : State) : Out :=
  .next (s.live fun s =>
    if s.pos ≠ 0 then
      match peers.head? with
      | some (cap, _, _) => s.capCut cap.toNat
      | none => s
    else
      let ((t, slow), s) := ((s.inletRead 0 t0).inletRead 1 t1).envelope fans peers
      if 2 ≤ slow ∨ 1120 < t then s.powerDown 4 else s)

/-- INLET_SENSOR_INVALID (R29): no reading for 3 s. -/
def execInletSensorInvalid (i : Fin 2) (s : State) : Out :=
  .next (s.live fun s => if s.pos = 0 then s.setBit Reg.MGMT_INLET (12 + 16 * i.val) false else s)

/-- TRAY_INSERT (R33): the hot-swap controller turns the input on, and the chip powers up. -/
def execTrayInsert (straps : BitVec 9) (tag : Bool) (s : State) : Out :=
  .next (if s.life.off then s.powerOn straps tag else s)

/-- TRAY_WITHDRAW (R34): as on loss of input; the voltage that the event reports is open. -/
def execTrayWithdraw (s : State) : Out :=
  .next (s.live fun s => let (v, s) := s.draw 16; s.inputLoss v.toNat)

/-- TASK_GO (R114): TILE_TASK_CTRL written with GO 1, RESUME 0 and STOP 0. -/
def execTaskGo (a : Agent) (n : Fin 144) (v : Word) (s : State) : Out :=
  .next (s.live fun s => s.agentWrite a (Reg.TILE n Reg.TILE_TASK_CTRL) (fixBits v [0] [1, 2]))

/-- TASK_RESUME (R115): TILE_TASK_CTRL written with GO 1, RESUME 1 and STOP 0. -/
def execTaskResume (a : Agent) (n : Fin 144) (v : Word) (s : State) : Out :=
  .next (s.live fun s => s.agentWrite a (Reg.TILE n Reg.TILE_TASK_CTRL) (fixBits v [0, 1] [2]))

/-- TASK_STOP (R117): TILE_TASK_CTRL written with STOP 1 and GO 0. -/
def execTaskStop (a : Agent) (n : Fin 144) (v : Word) (s : State) : Out :=
  .next (s.live fun s => s.agentWrite a (Reg.TILE n Reg.TILE_TASK_CTRL) (fixBits v [2] [0]))

/-- TASK_DRAIN_COMPLETE (R116, R120): once everything dispatched is done. -/
def execTaskDrainComplete (n : Fin 144) (s : State) : Out :=
  .next (s.live fun s => s.drainEnd n)

/-- DEFERRED_EXCEPTION_REPORT (R119, R121, R129): a cause of Table 4-6 that is delivered deferred. -/
def execDeferredExceptionReport (c : CoreId) (code : BitVec 6) (engine : BitVec 4) (unit : BitVec 16)
    (tval : Dword) (s : State) : Out :=
  .next (s.live fun s =>
    if deferredCodes.contains code.toNat then s.defer c ⟨code.toNat, engine.toNat, unit.toNat, tval⟩ else s)

end Sys2Proof.Machine
end

