-- ==== Sys2Proof/Machine/BlazeCmds.lean ====
section
/-! DEFINITION. The commands of chapter 21: the Blaze tag, by radio and by wire. The reader's field powers the tag, so that requests
by radio need no supply of the tray. -/

namespace Sys2Proof.Machine
open Sys2Proof

/-- INVENTORY (R669). -/
def execInventory (h : RfHead) (len : BitVec 7) (mask : Dword) (s : State) : Out :=
  .next (s.apart fun s => s.rfInventory h len.toNat mask)

/-- STAY_QUIET (R669). -/
def execStayQuiet (h : RfHead) (s : State) : Out :=
  .next (s.apart fun s => s.rfQuiet h)

/-- READ_SINGLE_BLOCK (R669). -/
def execReadSingleBlock (h : RfHead) (b : BitVec 8) (s : State) : Out :=
  .next (s.apart fun s => s.rfRead h b.toNat 1 256)

/-- EXTENDED_READ_SINGLE_BLOCK (R669). -/
def execExtendedReadSingleBlock (h : RfHead) (b : BitVec 16) (s : State) : Out :=
  .next (s.apart fun s => s.rfRead h b.toNat 1 2048)

/-- WRITE_SINGLE_BLOCK (R661, R669). -/
def execWriteSingleBlock (h : RfHead) (b : BitVec 8) (d : Word) (s : State) : Out :=
  .next (s.apart fun s => s.rfWrite h b.toNat [d] 256)

/-- EXTENDED_WRITE_SINGLE_BLOCK (R661, R669). -/
def execExtendedWriteSingleBlock (h : RfHead) (b : BitVec 16) (d : Word) (s : State) : Out :=
  .next (s.apart fun s => s.rfWrite h b.toNat [d] 2048)

/-- LOCK_BLOCK (R670). -/
def execLockBlock (h : RfHead) (b : BitVec 8) (s : State) : Out :=
  .next (s.apart fun s => s.rfLock h b.toNat)

/-- EXTENDED_LOCK_BLOCK (R670). -/
def execExtendedLockBlock (h : RfHead) (b : BitVec 16) (s : State) : Out :=
  .next (s.apart fun s => s.rfLock h b.toNat)

/-- READ_MULTIPLE_BLOCKS (R669): the request gives the number of blocks less 1. -/
def execReadMultipleBlocks (h : RfHead) (b : BitVec 8) (k : BitVec 8) (s : State) : Out :=
  .next (s.apart fun s => s.rfRead h b.toNat (k.toNat + 1) 256)

/-- EXTENDED_READ_MULTIPLE_BLOCKS (R669). -/
def execExtendedReadMultipleBlocks (h : RfHead) (b : BitVec 16) (k : BitVec 16) (s : State) : Out :=
  .next (s.apart fun s => s.rfRead h b.toNat (k.toNat + 1) 2048)

/-- WRITE_MULTIPLE_BLOCKS (R661, R669). -/
def execWriteMultipleBlocks (h : RfHead) (b : BitVec 8) (ds : List Word) (s : State) : Out :=
  .next (s.apart fun s => s.rfWrite h b.toNat ds 256)

/-- EXTENDED_WRITE_MULTIPLE_BLOCKS (R661, R669). -/
def execExtendedWriteMultipleBlocks (h : RfHead) (b : BitVec 16) (ds : List Word) (s : State) : Out :=
  .next (s.apart fun s => s.rfWrite h b.toNat ds 2048)

/-- GET_SYSTEM_INFORMATION (R669). -/
def execGetSystemInformation (h : RfHead) (s : State) : Out :=
  .next (s.apart fun s => s.rfInfo h 256 1)

/-- EXTENDED_GET_SYSTEM_INFORMATION (R669). -/
def execExtendedGetSystemInformation (h : RfHead) (s : State) : Out :=
  .next (s.apart fun s => s.rfInfo h 2048 2)

/-- LOCK_RECORD (R666). -/
def execLockRecord (h : RfHead) (record : BitVec 8) (session : BitVec 16) (s : State) : Out :=
  .next (s.apart fun s => s.rfLockRecord h record.toNat session.toNat)

/-- RELEASE_RECORD (R666). -/
def execReleaseRecord (h : RfHead) (record : BitVec 8) (session : BitVec 16) (s : State) : Out :=
  .next (s.apart fun s => s.rfRelease h record.toNat session.toNat)

/-- READ_LOCKS (R669): blocks 32 and 33. -/
def execReadLocks (h : RfHead) (s : State) : Out :=
  .next (s.apart fun s => s.rfDo h fun s => s.rfOk (s.block 32 ++ s.block 33))

/-- FIELD_COLLAPSE (R673, Table 21-7). -/
def execFieldCollapse (write : Option (RfHead × BitVec 16 × List Word × Nat)) (s : State) : Out :=
  .next (s.apart fun s => s.fieldLost write)

/-- LOCK_EXPIRY (R667): the lock of SERVICE or of NOTES. -/
def execLockExpiry (notes : Bool) (s : State) : Out :=
  .next (s.apart fun s => s.lockExpire (if notes then 3 else 2))

/-- BLAZE_READ (R655): MGMT_BLZ_CMD written with OP 0 and GO 1. -/
def execBlazeRead (a : Agent) (v : Word) (s : State) : Out :=
  .next (s.live fun s => s.agentWrite a Reg.MGMT_BLZ_CMD (fixBits v [20] [16, 17]))

/-- BLAZE_WRITE (R661): MGMT_BLZ_CMD written with OP 1 and GO 1. -/
def execBlazeWrite (a : Agent) (v : Word) (s : State) : Out :=
  .next (s.live fun s => s.agentWrite a Reg.MGMT_BLZ_CMD (fixBits v [16, 20] [17]))

/-- BLAZE_LOCK_RECORD (R666): MGMT_BLZ_CMD written with OP 2 and GO 1. -/
def execBlazeLockRecord (a : Agent) (v : Word) (s : State) : Out :=
  .next (s.live fun s => s.agentWrite a Reg.MGMT_BLZ_CMD (fixBits v [17, 20] [16]))

/-- BLAZE_RELEASE_RECORD (R666): MGMT_BLZ_CMD written with OP 3 and GO 1. -/
def execBlazeReleaseRecord (a : Agent) (v : Word) (s : State) : Out :=
  .next (s.live fun s => s.agentWrite a Reg.MGMT_BLZ_CMD (fixBits v [16, 17, 20] []))

/-- BLAZE_OP_DONE (R676). -/
def execBlazeOpDone (first again : Bool) (s : State) : Out :=
  .next (s.live fun s => s.blzDone first again)

/-- SERVICE_FLAG_POLL (R677). -/
def execServiceFlagPoll (s : State) : Out :=
  .next (s.live fun s => s.flagPoll)

end Sys2Proof.Machine
end

