-- ==== Sys2Proof/Machine/IntegCmds.lean ====
section
/-! DEFINITION. The commands of chapter 19: notices, restores, scrubbing, the error log, repair and the Tally. -/

namespace Sys2Proof.Machine
open Sys2Proof

/-- NQ_READ (R619, chapter 15): RANGER_NQ of core k read. -/
def execNqRead (a : Agent) (k : Fin 4) (s : State) : Out :=
  .next (s.live fun s => s.agentRead a (Reg.RANGER k.val 0x18))

/-- RQ_READ (R619). -/
def execRqRead (a : Agent) (s : State) : Out :=
  .next (s.live fun s => s.agentRead a Reg.INTEG_RQ)

/-- RESTORE_GO (R620): INTEG_RST_CTL written with GO 1. -/
def execRestoreGo (a : Agent) (v : Word) (s : State) : Out :=
  .next (s.live fun s => s.agentWrite a Reg.INTEG_RST_CTL (fixBits v [24] []))

/-- RESTORE_DONE (R620, R621): the restore in hand ends, once its source row has been read, and held passes may run. -/
def execRestoreDone (s : State) : Out :=
  .next (s.live fun s =>
    let t := s.restore
    let s := s.restoreAsk.restoreFinish
    match t with
    | some r => if h : r.req.tile < 144 then s.engines ⟨r.req.tile, h⟩ else s
    | none => s)

/-- RESTORE_TIMEOUT (R621). -/
def execRestoreTimeout (n : Fin 144) (m : Fin 16) (rg : Fin 32) (s : State) : Out :=
  .next (s.live fun s => (s.restoreExpire n m.val rg.val).engines n)

/-- MACRO_SCRUB_ROW (R617), after the flipped cells that `hits` lists. -/
def execMacroScrubRow (n : Fin 144) (hits : List RowHit) (s : State) : Out :=
  .next (s.live fun s => s.macroScrub n hits)

/-- LOG_READ (R622, R626): INTEG_LOG0 read; `rewritten`: the word it names has been rewritten since. -/
def execLogRead (a : Agent) (rewritten : Bool) (s : State) : Out :=
  .next (s.live fun s => s.agentRead a Reg.INTEG_LOG0 rewritten)

/-- LOG_OVERFLOW_SECOND (R622). -/
def execLogOverflowSecond (s : State) : Out :=
  .next (s.live fun s => s.logSecond)

/-- INTEG_CNT_CLR (R618): INTEG_CTRL written with CNT_CLR 1. -/
def execIntegCntClr (a : Agent) (v : Word) (s : State) : Out :=
  .next (s.live fun s => s.agentWrite a Reg.INTEG_CTRL (fixBits v [1] []))

/-- REPAIR_MAP_WRITE (R628). -/
def execRepairMapWrite (a : Agent) (v : Word) (s : State) : Out :=
  .next (s.live fun s => s.agentWrite a Reg.INTEG_REP_MAP v)

/-- REPAIR_LOCK (R628): INTEG_REPAIR written with LOCK 1. -/
def execRepairLock (a : Agent) (v : Word) (s : State) : Out :=
  .next (s.live fun s => s.agentWrite a Reg.INTEG_REPAIR (fixBits v [1] []))

/-- OPSEC_WRITE (R625). -/
def execOpsecWrite (s : State) : Out :=
  .next (s.live fun s => s.opsecWrite)

/-- EVENT_RAISE (R630): an event of any code, source and detail. -/
def execEventRaise (code : BitVec 16) (src : Byte) (detail : Dword) (s : State) : Out :=
  .next (s.live fun s => s.raise code.toNat src.toNat detail.toNat)

/-- TALLY_RAISE (R631): TALLY_RAISE_HI written. -/
def execTallyRaise (a : Agent) (v : Word) (s : State) : Out :=
  .next (s.live fun s => s.agentWrite a Reg.TALLY_RAISE_HI v)

/-- TALLY_CLEAR (R636): TALLY_CTRL written with CLEAR 1. -/
def execTallyClear (a : Agent) (v : Word) (s : State) : Out :=
  .next (s.live fun s => s.agentWrite a Reg.TALLY_CTRL (fixBits v [1] []))

/-- TALLY_FREEZE (R630): TALLY_CTRL written with CLEAR 0. -/
def execTallyFreeze (a : Agent) (v : Word) (s : State) : Out :=
  .next (s.live fun s => s.agentWrite a Reg.TALLY_CTRL (fixBits v [] [1]))

end Sys2Proof.Machine
end

