-- ==== Sys2Proof/Machine/LandingCmds.lean ====
section
/-! DEFINITION. The commands of chapter 14: frames, streams, rings and clocks of Landing. A frame row is a frame that arrives on a
MAC; what the frame is, its bytes decide. -/

namespace Sys2Proof.Machine
open Sys2Proof

/-- A frame arrives on MAC k and is handled; what it left in staging goes on its way (R461). -/
def State.frameIn (s : State) (k : Nat) (frame : List Byte) : State :=
  (s.macFrame k frame fun s g => s.takeFrame k frame g).stageGo

/-- GVSP_LEADER (R453 to R459). -/
def execGvspLeader (k : Fin 4) (frame : List Byte) (s : State) : Out :=
  .next (s.live fun s => if s.life.refLost then s else s.frameIn k.val frame)

/-- GVSP_PAYLOAD (R460, R461). -/
def execGvspPayload (k : Fin 4) (frame : List Byte) (s : State) : Out :=
  .next (s.live fun s => if s.life.refLost then s else s.frameIn k.val frame)

/-- GVSP_TRAILER (R462). -/
def execGvspTrailer (k : Fin 4) (frame : List Byte) (s : State) : Out :=
  .next (s.live fun s => if s.life.refLost then s else s.frameIn k.val frame)

/-- The runtime has the offset of this chip's clock from the master of the active uplink, in ns (R503): as a slave (roles 0 and 1)
it steps the clock when that exceeds 1 ms, and otherwise adjusts RATE, to a value that is its own (log 78). -/
def State.ptpServo (s : State) (offset : Dword) : State :=
  let d := offset.toInt
  if !s.runtimeOn 3 || decide (1 < s.ptpRole) || !(s.pos == 3 || (s.pos == 0 && s.uplink == 0)) then s
  else if 1000000 < d.natAbs then
    let n := (-offset).toNat
    let s := (s.runtimeWrite Reg.TIME_STEP_LO (BitVec.ofNat 32 n)).2
    let s := (s.runtimeWrite Reg.TIME_STEP_HI (BitVec.ofNat 32 (n / 2 ^ 32))).2
    (s.runtimeWrite Reg.TIME_CTRL 1).2
  else
    let (r, s) := s.draw 32
    (s.runtimeWrite Reg.TIME_RATE r).2

/-- RX_RING_FRAME (R451, R476); a frame on MAC 4 may leave the runtime with an offset of the clock (R503). -/
def execRxRingFrame (k : Fin 5) (frame : MacFrame) (s : State) : Out :=
  .next (s.live fun s =>
    if s.life.refLost then s
    else
      let s := s.frameIn k.val frame.bytes
      match frame.ptp with
      | some d => if k.val = 4 then s.ptpServo d else s
      | none => s)

/-- FRAME_TIMEOUT (R463, R464). -/
def execFrameTimeout (n : Fin 64) (s : State) : Out :=
  .next (s.live fun s => s.gapCheck n.val true)

/-- TOKEN_DELIVERY (R465, R483). -/
def execTokenDelivery (n : Fin 64) (s : State) : Out :=
  .next (s.live fun s => if s.life.refLost then s else s.deliverToken n.val)

/-- STREAM_RELEASE (R467): STRn_REL written. -/
def execStreamRelease (a : Agent) (n : Fin 64) (v : Word) (s : State) : Out :=
  .next (s.live fun s => s.agentWrite a (Reg.STR n.val 0x2C) v)

/-- STREAM_ENABLE (R458, R480): STRn_CTRL written. -/
def execStreamEnable (a : Agent) (n : Fin 64) (v : Word) (s : State) : Out :=
  .next (s.live fun s => s.agentWrite a (Reg.STR n.val 0) v)

/-- STREAM_LOST (R481): a link fault for 10 µs, or silence for STREAM_TO. -/
def execStreamLost (n : Fin 64) (fault : Bool) (s : State) : Out :=
  .next (s.live fun s => s.streamLost n.val fault)

/-- TX_FRAME_SEND (R477). -/
def execTxFrameSend (k : Fin 6) (s : State) : Out :=
  .next (s.live fun s => if s.life.refLost then s else s.txRing k.val)

/-- MAC k reports its link: the speed, 0 for none.  For an uplink the port table notes the change (Table 15-7). -/
def State.macLink (s : State) (k : Nat) (speed : BitVec 2) : State :=
  let w := BitVec.ofNat 32 (b2n (speed != 0) + 2 * speed.toNat)
  let old := s.rd (Reg.MAC_STAT k)
  let s := s.wr (Reg.MAC_STAT k) w
  if k ≠ 4 ∨ w = old then s
  else
    let p := s.port 4
    s.setPort 4 { p with changed := s.timeNow, flaps := p.flaps + b2n (old.getLsbD 0 && speed == 0) }

/-- MAC_LINK_CHANGE (R481, R501). -/
def execMacLinkChange (k : Fin 5) (speed : BitVec 2) (s : State) : Out :=
  .next (s.live fun s => s.macLink k.val speed)

/-- TIME_STEP (R473): TIME_CTRL written with STEP 1 and ODO_PRESET 0. -/
def execTimeStep (a : Agent) (v : Word) (s : State) : Out :=
  .next (s.live fun s => s.agentWrite a Reg.TIME_CTRL (fixBits v [0] [2]))

/-- ODO_PRESET (R475): TIME_CTRL written with ODO_PRESET 1 and STEP 0. -/
def execOdoPreset (a : Agent) (v : Word) (s : State) : Out :=
  .next (s.live fun s => s.agentWrite a Reg.TIME_CTRL (fixBits v [2] [0]))

/-- ODO_EDGE (R475): the levels of channels A and B, and the PCLK samples for which each has held. -/
def execOdoEdge (chA chB : OdoLevel) (s : State) : Out :=
  .next (s.live fun s => s.odoEdge chA.level chB.level chA.held.toNat chB.held.toNat)

end Sys2Proof.Machine
end

