-- ==== Sys2Proof/Machine/LifeCmds.lean ====
section
/-! DEFINITION. The commands of chapter 18: clocks, reset, boot, watchdogs, retention and loss of supply. -/

namespace Sys2Proof.Machine
open Sys2Proof

/-- The bit of CLK_RST_CAUSE for a cause of a tray reset: button, TTCP, watchdog, reference, PLL. -/
def trayCause (c : Fin 5) : Nat :=
  match c with
  | 0 => rcButton | 1 => rcTtcp | 2 => rcWdog | 3 => rcRef | _ => rcPll

/-- SSC_APPLY (R750). -/
def execSscApply (pll : Fin 5) (s : State) : Out :=
  .next (s.live fun s => s.sscApply pll.val)

/-- POWER_ON_RESET (R588, R602): the straps' levels, and whether the Blaze tag answers. -/
def execPowerOnReset (straps : BitVec 9) (tag : Bool) (s : State) : Out :=
  .next (s.powerOn straps tag)

/-- TRAY_RESET (R588, R589): TRST_N is driven, and this chip's main reset follows, unless the pin carries another function. -/
def execTrayReset (cause : Fin 5) (tag : Bool) (s : State) : Out :=
  .next (s.live fun s =>
    let c := trayCause cause
    if s.trstOn then (if s.pos = 0 then s.emit (.trayReset c) else s).mainReset c tag else s)

/-- BOOT_STEP_TIMEOUT (R598). -/
def execBootStepTimeout (step : Fin 13) (s : State) : Out :=
  .next (s.live fun s => s.stepTimeout step.val)

/-- WATCHDOG_ARM (R592): CLK_WDOG written with EN 1. -/
def execWatchdogArm (a : Agent) (v : Word) (s : State) : Out :=
  .next (s.live fun s => s.agentWrite a Reg.CLK_WDOG (fixBits v [0] []))

/-- WDOG_KICK (R592). -/
def execWdogKick (a : Agent) (v : Word) (s : State) : Out :=
  .next (s.live fun s => s.agentWrite a Reg.CLK_WDOG_KICK v)

/-- WATCHDOG_EXPIRY (R592). -/
def execWatchdogExpiry (s : State) : Out :=
  .next (s.live fun s => s.wdogExpire)

/-- SWDOG_KICK (R591): CLK_SWDOG written with KICK 1. -/
def execSwdogKick (a : Agent) (v : Word) (s : State) : Out :=
  .next (s.live fun s => s.agentWrite a Reg.CLK_SWDOG (fixBits v [0] []))

/-- SCALER_WATCHDOG_EXPIRY (R591). -/
def execScalerWatchdogExpiry (s : State) : Out :=
  .next (s.live fun s => s.swdogExpire)

/-- REFERENCE_CHECK (R597). -/
def execReferenceCheck (khz : Word) (s : State) : Out :=
  .next (s.live fun s => s.refCheck khz.toNat)

/-- REFERENCE_RETURN (R597). -/
def execReferenceReturn (s : State) : Out :=
  .next (s.live fun s => s.refBack)

/-- PLL_LOCK_LOSS (R596): 0 to 3 TCLK, 4 NCLK, 5 PCLK. -/
def execPllLockLoss (pll : Fin 6) (s : State) : Out :=
  .next (s.live fun s => s.pllLost pll.val)

/-- SOFT_RESET (R593): CLK_SRST written. -/
def execSoftReset (a : Agent) (v : Word) (s : State) : Out :=
  .next (s.live fun s => s.agentWrite a Reg.CLK_SRST v)

/-- TILE_RESET (R405, R594): CLK_TRSTi written. -/
def execTileReset (a : Agent) (i : Fin 5) (v : Word) (s : State) : Out :=
  .next (s.live fun s => s.agentWrite a (Reg.CLK_TRST i.val) v)

/-- RETENTION_WAKE (R605, R606). -/
def execRetentionWake (src : Fin 5) (s : State) : Out :=
  .next (s.live fun s => s.retentionWake src.val)

/-- INPUT_LOSS (R608): the input in 0.1 V. -/
def execInputLoss (decivolts : BitVec 16) (s : State) : Out :=
  .next (s.live fun s => s.inputLoss decivolts.toNat)

/-- RIDE_THROUGH (R609). -/
def execRideThrough (s : State) : Out :=
  .next (s.live fun s => s.rideThrough)

/-- INPUT_LOSS_TIMEOUT (R608, Table 18-13). -/
def execInputLossTimeout (s : State) : Out :=
  .next (s.live fun s => s.lossTimeout)

/-- RAIL_FAILURE (R599, Table 18-8). -/
def execRailFailure (rail : Fin 9) (stack : Fin 2) (s : State) : Out :=
  .next (s.live fun s => s.railFailure rail.val stack.val)

end Sys2Proof.Machine
end

