-- ==== Sys2Proof/Machine/MeshCmds.lean ====
section
/-! DEFINITION. The commands of chapters 11 and 12: the HBM controllers, the mesh, the Skidder and the Choker. -/

namespace Sys2Proof.Machine
open Sys2Proof

/-- HBM_REQUEST (R360 to R365, R377). -/
def execHbmRequest (tag : BitVec 17) (s : State) : Out :=
  .next (s.live fun s => s.hbmAccess tag.toNat)

/-- PATROL_READ (R366), after the cell upsets that `hits` lists. -/
def execPatrolRead (i : Fin 2) (hits : List CellHit) (s : State) : Out :=
  .next (s.live fun s => s.patrol i.val hits)

/-- REFRESH (R367). -/
def execRefresh (i : Fin 2) (pc : Fin 32) (s : State) : Out :=
  .next (s.live fun s => s.refreshPc i.val pc.val)

/-- HBM_TEMP_READ (R367, R374). -/
def execHbmTempRead (i : Fin 2) (t : BitVec 8) (s : State) : Out :=
  .next (s.live fun s => s.hbmTemp i.val t.toNat)

/-- SELF_REFRESH_ENTRY (R369): HBM_CTRL written with SR_REQ 1. -/
def execSelfRefreshEntry (a : Agent) (i : Fin 2) (v : Word) (s : State) : Out :=
  .next (s.live fun s => s.agentWrite a (Reg.HBM i.val Reg.HBM_CTRL) (fixBits v [4] [9, 10]))

/-- SELF_REFRESH_EXIT (R369): HBM_CTRL written with SR_REQ 0. -/
def execSelfRefreshExit (a : Agent) (i : Fin 2) (v : Word) (s : State) : Out :=
  .next (s.live fun s => s.agentWrite a (Reg.HBM i.val Reg.HBM_CTRL) (fixBits v [] [4, 9, 10]))

/-- SR_SEQUENCE_COMPLETE (R381, R761, Table 11-2). -/
def execSrSequenceComplete (i : Fin 2) (recheckOk : Bool) (failPc : Fin 32) (s : State) : Out :=
  .next (s.live fun s => s.srEnd i.val recheckOk failPc.val)

/-- CE_CLR (R364): HBM_CTRL written with CE_CLR 1. -/
def execCeClr (a : Agent) (i : Fin 2) (v : Word) (s : State) : Out :=
  .next (s.live fun s => s.agentWrite a (Reg.HBM i.val Reg.HBM_CTRL) (fixBits v [9] [10]))

/-- UE_CLR (R365): HBM_CTRL written with UE_CLR 1. -/
def execUeClr (a : Agent) (i : Fin 2) (v : Word) (s : State) : Out :=
  .next (s.live fun s => s.agentWrite a (Reg.HBM i.val Reg.HBM_CTRL) (fixBits v [10] [9]))

/-- HBM_CE_HOUR (R379). -/
def execHbmCeHour (i : Fin 2) (s : State) : Out :=
  .next (s.live fun s => s.hbmHour i.val)

/-- HBM_BRINGUP (R380, Table 11-5, step 2): identity and RFM threshold of the stack. -/
def execHbmBringup (i : Fin 2) (id : Dword) (rfm : BitVec 16) (s : State) : Out :=
  .next (s.live fun s => s.hbmLive i.val id rfm.toNat)

/-- HBM_TRAINING_DONE (R378): a failure during boot fails the boot (R30). -/
def execHbmTrainingDone (i : Fin 2) (rate : Option (BitVec 2)) (failPc : Fin 32) (s : State) : Out :=
  .next (s.live fun s =>
    let t := s.hbmTrained i.val (rate.map fun r => r.toNat) failPc.val
    if (s.ctl i.val).phase = 2 ∧ rate.isNone ∧ s.lf = lfBoot then t.bootFail else t)

/-- HBM_INIT_DONE (R380). -/
def execHbmInitDone (i : Fin 2) (s : State) : Out :=
  .next (s.live fun s => s.hbmInit i.val)

/-- MESH_PACKET_ROUTE (R383, R386): one hop of the packet of a transaction, or its loss. -/
def execMeshPacketRoute (tag : BitVec 17) (parityError : Bool) (s : State) : Out :=
  .next (s.live fun s => s.meshRoute tag.toNat parityError)

/-- DMA_DESCRIPTOR_START (R389, R403). -/
def execDmaDescriptorStart (n : Fin 144) (q : Fin 8) (s : State) : Out :=
  .next (s.live fun s => s.skStart n q.val)

/-- DMA_DESCRIPTOR_COMPLETE (R391): a WAITEV or DMA.WAIT may complete. -/
def execDmaDescriptorComplete (n : Fin 144) (q : Fin 8) (s : State) : Out :=
  .next (s.live fun s => (s.skComplete n q.val).pollTile n)

/-- DMA_TIMEOUT (R392, R402). -/
def execDmaTimeout (n : Fin 144) (q : Fin 8) (s : State) : Out :=
  .next (s.live fun s => s.skTimeout n q.val)

/-- SKQ_RESTART (R404): TILE_SKQ_CTRL written with RESTART bits. -/
def execSkqRestart (a : Agent) (n : Fin 144) (mask : BitVec 8) (s : State) : Out :=
  .next (s.live fun s => s.agentWrite a (Reg.TILE n Reg.TILE_SKQ_CTRL) (mask.setWidth 32))

/-- SKQ_SKIP (R404): TILE_SKQ_CTRL written with SKIP bits. -/
def execSkqSkip (a : Agent) (n : Fin 144) (mask : BitVec 8) (s : State) : Out :=
  .next (s.live fun s => s.agentWrite a (Reg.TILE n Reg.TILE_SKQ_CTRL) (mask.setWidth 32 <<< 8))

/-- CHOKER_RESPONSE (R395, R398). -/
def execChokerResponse (tag : BitVec 17) (s : State) : Out :=
  .next (s.live fun s => s.deliver tag.toNat)

/-- TAG_EXPIRY (R396, R397). -/
def execTagExpiry (tag : BitVec 17) (s : State) : Out :=
  .next (s.live fun s => s.tagExpire tag.toNat)

/-- QUOTA_WRITE (R399). -/
def execQuotaWrite (a : Agent) (n : Fin 144) (v : Word) (s : State) : Out :=
  .next (s.live fun s => s.agentWrite a (Reg.CHOKER_QUOTA n) v)

end Sys2Proof.Machine
end

