-- ==== Sys2Proof/Machine/Ttcp.lean ====
section
/-! DEFINITION. TTCP, the console and the recovery blocks (R502 to R508, R516, R565, R605). -/

namespace Sys2Proof.Machine
open Sys2Proof

/-! ### Status (Table 15-10) -/

def ttOk : Nat := 0
def ttBadMsg : Nat := 1
def ttBadState : Nat := 2
def ttBusy : Nat := 3
def ttNoChip : Nat := 4
def ttRefused : Nat := 5
def ttDigest : Nat := 6
def ttFlash : Nat := 7
def ttNotHead : Nat := 8

/-- What follows an answer: a tray reset, or a controlled power-down. -/
inductive After where
  | none | trayReset | powerDown
  deriving DecidableEq, Repr

/-- The answer to a request: STATUS, payload, the state after its effect, and what follows; `later` holds the answer of a
BUDGET back (R565, R571). -/
structure Ans where
  status : Nat
  data : List Byte
  s : State
  after : After := .none
  later : Bool := false

/-- An answer without payload. -/
def State.ans (s : State) (status : Nat) : Ans := ⟨status, [], s, .none, false⟩

/-! ### Register access by the runtime (R66) -/

/-- REG_READ of `k` registers from an offset. -/
def State.ttRead (s : State) (off : Nat) : Nat → List Byte → Ans
  | 0, acc => ⟨ttOk, acc, s, .none, false⟩
  | k + 1, acc =>
    match s.regReason (.ranger 0) off 4 off with
    | some r => (s.regRefused 144 off false r false).ans ttRefused
    | none =>
      let (b, s) := s.draw 1
      let (v, s) := s.readReg (.ranger 0) off (b == 1#1)
      s.ttRead (off + 4) k (acc ++ leBytes 4 v.toNat)

/-- REG_WRITE of values from an offset. -/
def State.ttWrite (s : State) (off : Nat) : List Nat → Ans
  | [] => s.ans ttOk
  | v :: vs =>
    match s.runtimeWrite off (BitVec.ofNat 32 v) with
    | (some _, s) => s.ans ttRefused
    | (none, s) => s.ttWrite (off + 4) vs

/-! ### The update session (R505) -/

def imgBase (kind : Nat) : Nat := if kind = 1 then fwBase else plxBase
def imgMax (kind : Nat) : Nat := if kind = 1 then fwMax else plxMax
def imgHead (kind : Nat) : Nat := if kind = 1 then 64 else 128

/-- UPD_BEGIN of a requester. -/
def State.updBegin (s : State) (who : Option Nat) (b : List Byte) : Ans :=
  let kind := leAt b 0 1
  let len := leAt b 8 8
  if b.length ≠ 48 ∨ !(kind == 1 || kind == 2) ∨ imgMax kind < len then s.ans ttBadMsg
  else if s.svc.session.any fun (x : Session) => x.ip != who then s.ans ttBusy
  else if kind = 2 ∧ s.svState ≠ svIdle ∧ s.svState ≠ svRecovery then s.ans ttBadState
  else
    let s := (s.putDir 5 (leBytes 1 kind)).modSvc fun v =>
      { v with session := some { ip := who, kind := kind, len := len, digest := (b.drop 16).take 32 } }
    (s.raise 0x7020 0 (kind + 256 * len)).ans ttOk

/-- UPD_DATA at an offset; `ok`: the flash took the write. -/
def State.updData (s : State) (who : Option Nat) (off : Nat) (d : List Byte) (ok : Bool) : Ans :=
  match s.svc.session with
  | none => s.ans ttBadState
  | some x =>
    if x.ip ≠ who then s.ans ttBusy
    else if x.len < off + d.length then s.ans ttBadMsg
    else if !ok then s.ans ttFlash
    else (s.flashPut (imgBase x.kind + off) d).ans ttOk

/-- UPD_COMMIT: the digest, the directory, the Blaze digests and the other chips' copies; in RECOVERY the tray resets when
every chip's checks pass (R507). -/
def State.updCommit (s : State) (who : Option Nat) (ok : Bool) : Ans :=
  match s.svc.session with
  | none => s.ans ttBadState
  | some x =>
    if x.ip ≠ who then s.ans ttBusy
    else
      let dg := s.imageDigest (imgBase x.kind) (imgHead x.kind) x.len
      if dg ≠ x.digest ∨ dg ≠ s.flashGet (imgBase x.kind + 32) 32 then s.ans ttDigest
      else if !ok then s.ans ttFlash
      else
        let o := if x.kind = 1 then 8 else 48
        let s := ((s.putDir o (leBytes 8 x.len)).putDir (o + 8) dg).putDir 5 [0]
        let s := (s.putDigests.emit (.copyImage x.kind)).modSvc fun v =>
          { v with session := none, changed := v.changed || x.kind == 2 }
        let s := s.raise 0x7021 0 x.kind
        { (s.ans ttOk) with after := if s.svState = svRecovery ∧ s.bootFaults = 0 then .trayReset else .none }

/-! ### The messages (Table 15-9) -/

/-- The HELLO payload; `state` is RANGER_SVC.STATE as it is to read, and byte 4 the tray number (`trayByte`, log 64). -/
def State.helloPayload (s : State) (ready : BitVec 4) (state : Nat) : List Byte :=
  let d := s.dir
  leBytes 4 (s.rd Reg.CHIP_ID).toNat ++ leBytes 1 s.trayByte ++ leBytes 1 ready.toNat ++ leBytes 1 state ++
  leBytes 1 (s.svc.failed.toNat % 4) ++ (d.drop 16).take 32 ++ (d.drop 56).take 32 ++ leBytes 8 s.placement ++
  s.blazeBytes 8 16

/-- The STATUS payload. -/
def State.statusPayload (s : State) : List Byte :=
  let v := s.svc
  leBytes 8 v.sent ++ leBytes 8 v.rejected ++ leBytes 8 v.datagrams ++ leBytes 8 (v.lossRead.foldl (fun a p => a + p.2) 0) ++
  leBytes 8 v.frames ++ leBytes 1 v.lastStop

/-- Entries of the port table. -/
def State.portPayload (s : State) (first count : Nat) : List Byte :=
  (List.range count).flatMap fun i => s.svc.ports.get (List.replicate 64 0) (first + i)

/-- Tally records of Table 19-6. -/
def State.tallyPayload (s : State) (first count : Nat) : List Byte :=
  (List.range count).flatMap fun i =>
    let r := s.tally.get {} ((first + i) % 1024)
    leBytes 6 r.time.toNat ++ leBytes 2 r.code.toNat ++ leBytes 8 r.detail.toNat

/-- The values of a REG_WRITE payload. -/
def ttValues (b : List Byte) (k : Nat) : List Nat := (List.range k).map fun i => leAt b (8 + 4 * i) 4

/-- Is the service where its work can be commanded: chip and tray run. -/
def State.lifeRuns (s : State) : Bool := s.lf == lfRun

/-- A message of TYPE with payload `b` takes its effect (Table 15-9); `who` is the requester's address, none for the
console, which `ready` chips answer; `answers` is the answer of the other mapped chips to a START, `ok` that of the
flash. -/
def State.request (s : State) (type : Nat) (who : Option Nat) (b : List Byte) (ready : BitVec 4) (answers ok : Bool) : Ans :=
  let n := b.length
  let st := s.svState
  let bad := s.ans ttBadMsg
  match type with
  | 0x01 => if n ≠ 0 then bad else ⟨ttOk, s.helloPayload ready st, s, .none, false⟩
  | 0x02 => if n ≠ 0 then bad else ⟨ttOk, s.statusPayload, s, .none, false⟩
  | 0x03 =>
    let k := leAt b 1 1
    if n ≠ 2 ∨ k = 0 ∨ 19 < leAt b 0 1 + k then bad else ⟨ttOk, s.portPayload (leAt b 0 1) k, s, .none, false⟩
  | 0x04 =>
    let k := leAt b 0 1
    if n ≠ 8 ∨ k = 0 ∨ 64 < k then bad else s.ttRead (leAt b 4 4) k []
  | 0x05 =>
    let k := leAt b 0 1
    if n ≠ 8 + 4 * k ∨ k = 0 ∨ 64 < k then bad else s.ttWrite (leAt b 4 4) (ttValues b k)
  | 0x06 =>
    let k := leAt b 2 1
    if n ≠ 3 ∨ k = 0 ∨ 64 < k ∨ 1023 < leAt b 0 2 then bad else ⟨ttOk, s.tallyPayload (leAt b 0 2) k, s, .none, false⟩
  | 0x07 => if n ≠ 16 ∨ 2 < leAt b 0 1 then bad else (s.putDir (88 + 16 * leAt b 0 1) ((b.drop 4).take 12)).ans ttOk
  | 0x10 =>
    if n ≠ 1 ∨ (15 < leAt b 0 1 ∧ leAt b 0 1 ≠ 0xFF) then bad
    else if st ≠ svIdle ∨ s.svc.session.isSome ∨ !s.lifeRuns then s.ans ttBadState
    else (s.startBegin (if leAt b 0 1 = 0xFF then none else some (leAt b 0 1)) answers).ans ttOk
  | 0x11 =>
    if n ≠ 0 then bad
    else if !(st == svRunning || st == svStarting || st == svQuiesced) ∨ !s.lifeRuns then s.ans ttBadState
    else (s.stopBegin svIdle 0 0).ans ttOk
  | 0x12 =>
    if n ≠ 0 then bad
    else if !(st == svRunning || st == svStarting) ∨ !s.lifeRuns then s.ans ttBadState
    else (s.stopBegin svQuiesced 1 0).ans ttOk
  | 0x13 =>
    if n ≠ 0 then bad
    else if st ≠ svQuiesced ∨ !s.lifeRuns then s.ans ttBadState else s.resumeBegin.ans ttOk
  | 0x18 => if n ≠ 6 then bad else (s.putDir 136 b).ans ttOk
  | 0x19 =>
    let k := leAt b 8 1
    let f := leAt b 0 8
    if n ≠ 9 ∨ k = 0 ∨ 10 < k then bad
    else ⟨ttOk, (s.svc.held.filter fun r => decide (f ≤ r.1 ∧ r.1 < f + k)).flatMap (·.2), s, .none, false⟩
  | 0x20 => s.updBegin who b
  | 0x21 => if n < 9 ∨ 1032 < n ∨ leAt b 0 8 % 1024 ≠ 0 then bad else s.updData who (leAt b 0 8) (b.drop 8) ok
  | 0x22 => if n ≠ 0 then bad else s.updCommit who ok
  | 0x30 =>
    let w := leAt b 0 4
    if s.chipId ≠ 0 then s.ans ttNotHead
    else if n ≠ 4 ∨ w < 4160 ∨ 65535 < w then bad
    else { ({ s with rack := { s.rack with newBudget := some w } }.ans ttOk) with later := true }
  | 0x31 => if n ≠ 1 ∨ 2 < leAt b 0 1 then bad else (s.putDir 142 b).ans ttOk
  | 0x40 => if n ≠ 1 ∨ 1 < leAt b 0 1 then bad else (s.setBit Reg.RANGER_SVC 4 (leAt b 0 1 == 1)).ans ttOk
  | 0x41 =>
    if n ≠ 0 then bad
    else if st = svStarting ∨ st = svStopping ∨ st = svRecovery ∨ st = svBoot ∨ !s.lifeRuns then s.ans ttBadState
    else s.retainBegin.ans ttOk
  | 0x42 =>
    if n ≠ 1 ∨ 1 < leAt b 0 1 then bad
    else { (s.ans ttOk) with after := if leAt b 0 1 = 0 then .trayReset else .powerDown }
  | _ => bad

/-- What follows an answer. -/
def State.follow (s : State) (a : After) : State :=
  match a with
  | .none => s
  | .trayReset => s.askTrayReset rcTtcp
  | .powerDown => s.powerDown 1

/-! ### Datagrams (R502 to R504) -/

/-- The bytes of a response. -/
def ttReply (req : List Byte) (status : Nat) (data : List Byte) : List Byte :=
  req.take 6 ++ leBytes 1 status ++ leBytes 1 1 ++ (req.drop 8).take 4 ++ leBytes 2 data.length ++ (req.drop 14).take 1 ++
  leBytes 1 0 ++ data

/-- Send a response to a requester. -/
def State.ttSend (s : State) (via ip port : Nat) (b : List Byte) : State := s.emit (.udp via (s.ifAddr via) 47100 ip port b)

/-- Keep a response: the last 32 of each requester (R504). -/
def State.ttKeep (s : State) (ip reqid type : Nat) (b : List Byte) : State :=
  let mine := s.svc.replies.filter fun (r : Reply) => r.ip == ip
  let rest := s.svc.replies.filter fun (r : Reply) => r.ip != ip
  s.modSvc fun v => { v with replies := rest ++ mine.drop (mine.length - 31) ++ [⟨ip, reqid, type, b⟩] }

/-- Answer a request and keep the answer, then do what follows. -/
def State.ttAnswer (q : Ttcp) (b : List Byte) (a : Ans) : State :=
  let ip := q.ip.toNat
  let r := ttReply b a.status a.data
  if a.later then a.s.modSvc fun v => { v with budgets := v.budgets ++ [(q.via.val, ip, q.port.toNat, r)] }
  else ((a.s.ttKeep ip (leAt b 8 4) (leAt b 5 1) r).ttSend q.via ip q.port.toNat r).follow a.after

/-- A request for this chip, by the state of the tray: RETAINED answers HELLO, RESUME and RESET on the management port
(R605), RECOVERY HELLO, the update messages and RESET on U0 (R507), a chip in BOOT nothing. -/
def State.ttHandle (s : State) (q : Ttcp) (type : Nat) (b p : List Byte) (answers ok : Bool) : State :=
  if s.lf = lfRetained then
    if q.via ≠ 2 ∨ s.pos ≠ 0 then s
    else
      State.ttAnswer q b (match type with
        | 0x01 => ⟨ttOk, s.helloPayload q.ready 5, s, .none, false⟩
        | 0x13 => if s.wakeHolds 0 then (s.retentionWake 0).ans ttOk else s.ans ttBadState
        | 0x42 => s.request 0x42 (some q.ip.toNat) p q.ready answers ok
        | _ => s.ans ttBadState)
  else if s.svState = svBoot then s
  else if s.svState = svRecovery then
    if q.via ≠ 0 ∨ s.pos ≠ 0 then s
    else if type = 0x01 ∨ (0x20 ≤ type ∧ type ≤ 0x22) ∨ type = 0x42 then
      State.ttAnswer q b (s.request type (some q.ip.toNat) p q.ready answers ok)
    else State.ttAnswer q b (s.ans ttBadState)
  else State.ttAnswer q b (s.request type (some q.ip.toNat) p q.ready answers ok)

/-- A TTCP datagram of TYPE arrives (R502, R504, R512).  The instance on chip 0 answers for the tray and holds its update
session (R486); another chip hands it what is for it, and chip 0 hands on what names another chip. -/
def State.ttcpIn (s : State) (q : Ttcp) (type : Nat) (answers ok : Bool := true) : State :=
  let b := q.bytes.take 5 ++ leBytes 1 type ++ q.bytes.drop 6
  let ip := q.ip.toNat
  if s.life.off || s.life.failed then s
  else if b.length < 16 ∨ leAt b 0 4 ≠ 0x31435454 ∨ leAt b 4 1 ≠ 1 then s.raise 0x7040 0 (type + 2 ^ 32 * ip)
  else match s.svc.replies.find? fun (r : Reply) => r.ip == ip && r.reqid == leAt b 8 4 && r.type == type with
    | some r => s.ttSend q.via ip q.port.toNat r.bytes
    | none =>
      let p := b.drop 16
      let chip := leAt b 14 1
      let near := chip / 4 = s.chipId / 4
      let dest := if chip = 0xFF ∨ (0x20 ≤ type ∧ type ≤ 0x22) then 0 else chip % 4
      if leAt b 6 2 ≠ 0 ∨ leAt b 12 2 ≠ p.length ∨ 1400 < p.length ∨ leAt b 15 1 ≠ 0 then State.ttAnswer q b (s.ans ttBadMsg)
      else if chip ≠ 0xFF ∧ chip ≠ s.chipId ∧ !(near && q.ready.getLsbD (chip % 4)) then State.ttAnswer q b (s.ans ttNoChip)
      else if dest = s.pos then s.ttHandle q type b p answers ok
      else s.emit (.toInstance dest b)

/-- BUDGET requests are answered once the budget is in force and the ledger within it (R571). -/
def State.budgetAnswers (s : State) : State :=
  if s.rack.newBudget.isSome ∨ s.getF Reg.PWR_CRU_BUDGET 15 0 < s.ledger then s
  else
    let qs := s.svc.budgets
    qs.foldl (fun (s : State) (x : Nat × Nat × Nat × List Byte) =>
        (s.ttKeep x.2.1 (leAt x.2.2.2 8 4) 0x30 x.2.2.2).ttSend x.1 x.2.1 x.2.2.1 x.2.2.2)
      (s.modSvc fun v => { v with budgets := [] })

/-! ### The console (R506, Table 15-11) -/

/-- Does the runtime of chip 0 serve its console. -/
def State.consoleOn (s : State) : Bool :=
  !s.life.off && !s.life.failed && s.pos == 0 && s.svState != svBoot && s.svState != svRecovery && s.lf != lfRetained &&
  s.lf != lfWaking

/-- A console command that acts as a TTCP message: its reply, then what follows. -/
def State.consoleDo (s : State) (type : Nat) (p : List Byte) (ready : BitVec 4) (answers : Bool := true) : State :=
  if s.consoleOn then
    let a := s.request type none p ready answers true
    (a.s.emit (.console a.data a.status)).follow a.after
  else s

/-- A console register access to a chip of the tray. -/
def State.consoleReg (s : State) (type chip : Nat) (p : List Byte) (ready : BitVec 4) : State :=
  if !s.consoleOn then s
  else if chip = s.chipId ∨ chip = 0xFF then s.consoleDo type p ready
  else if chip / 4 = s.chipId / 4 ∧ ready.getLsbD (chip % 4) then
    s.emit (.toInstance (chip % 4) (leBytes 4 0x31435454 ++ leBytes 1 1 ++ leBytes 1 type ++ leBytes 6 0 ++
      leBytes 2 p.length ++ leBytes 2 chip ++ p))
  else s.emit (.console [] ttNoChip)

/-! ### Recovery blocks (R508, Table 15-12) -/

/-- Does chip 0's boot ROM take recovery blocks. -/
def State.recoveryOn (s : State) : Bool := !s.life.off && !s.life.failed && s.pos == 0 && s.svState == svRecovery

/-- Answer a block: ACK with SEQ, or NAK with SEQ and STATUS; an acknowledged block is the last one. -/
def State.recAnswer (seq : Nat) (a : Ans) : State :=
  if a.status = 0 then
    let r := leBytes 1 0x06 ++ leBytes 2 seq
    ((a.s.modSvc fun v => { v with recSeq := some (seq, r) }).emit (.romText r)).follow a.after
  else
    (a.s.modSvc fun v => { v with recSeq := some (v.recSeq.getD (65536, [])) }).emit
      (.romText (leBytes 1 0x15 ++ leBytes 2 seq ++ leBytes 1 a.status))

/-- The effect of a block: BEGIN, DATA, COMMIT or REBOOT. -/
def State.recDo (s : State) (type seq : Nat) (p : List Byte) (ok : Bool) : Ans :=
  match type with
  | 1 => if seq ≠ 0 then s.ans ttBadMsg else s.updBegin none p
  | 2 =>
    match s.svc.session with
    | some x =>
      let a := s.updData none x.at' p ok
      if a.status = 0 then
        { a with s := a.s.modSvc fun v => { v with session := some { x with at' := x.at' + p.length } } }
      else a
    | none => s.ans ttBadState
  | 3 => s.updCommit none ok
  | _ => { (s.ans ttOk) with after := .trayReset }

/-- A recovery block of TYPE arrives: its CRC and SEQ are judged, a repeated one is answered again. -/
def State.recBlock (s : State) (type seq : Nat) (p : List Byte) (crc : Nat) (ok : Bool) : State :=
  if !s.recoveryOn then s
  else
    let b := leBytes 1 type ++ leBytes 2 seq ++ leBytes 2 p.length ++ p
    let bad := State.recAnswer seq (s.ans ttBadMsg)
    if crc16 b ≠ crc ∨ 1024 < p.length then bad
    else match s.svc.recSeq with
      | some (q, r) =>
        if q = seq ∧ (type ≠ 1 ∨ s.svc.session.isSome) then s.emit (.romText r)
        else if type ≠ 1 ∧ type ≠ 4 ∧ seq ≠ (q + 1) % 65536 then bad
        else State.recAnswer seq (s.recDo type seq p ok)
      | none => State.recAnswer seq (s.recDo type seq p ok)

end Sys2Proof.Machine
end

