-- ==== Sys2Proof/Machine/Front.lean ====
section
/-! DEFINITION. The front panel's buttons and lights (R646 to R651, R654), the hold-up bank (R742), and the recovery
blocks as characters of UART0 (R508). -/

namespace Sys2Proof.Machine
open Sys2Proof

/-! ### Buttons: 0 IDENT, 1 SERVICE, 2 RESET -/

def State.button (s : State) (b : Nat) : Button := s.panel.buttons.get {} b
def State.setButton (s : State) (b : Nat) (x : Button) : State :=
  { s with panel := { s.panel with buttons := s.panel.buttons.set {} b x } }

/-- Does button b reach the island: chip 0's, whose pin carries it (MFP25 to MFP27, function F1). -/
def State.buttonWired (s : State) (b : Nat) : Bool := s.pos == 0 && s.pinIs (25 + b) 1

/-- Event 0x8002: a press that its state does not take; the press is used up. -/
def State.pressVoid (s : State) (b : Nat) : State :=
  (s.setButton b { down := true, used := true }).raise 0x8002 b (s.svState + 2 ^ 8 * s.lf)

/-- Event 0x8001: an action. -/
def State.pressed (s : State) (b action : Nat) : State := s.raise 0x8001 b action

/-- The lights go off for 0.5 s (Table 20-6). -/
def State.blackout (s : State) : State := { s with panel := { s.panel with blank := some s.now } }

/-- Does the state of the tray make the island ignore its buttons (R647). -/
def State.buttonsOff (s : State) : Bool := s.lf == lfPowerdown || s.lf == lfInputLoss || s.lf == lfRetaining

/-- A press of button b is accepted. -/
def State.press (s : State) (b : Nat) : State :=
  if s.life.off || !s.buttonWired b || s.bit Reg.MGMT_BTN (4 + b) || (s.button b).down then s
  else
    let s := (s.setBit Reg.MGMT_BTN b true).setButton b { down := true }
    if s.buttonsOff then s.pressVoid b
    else if b ≠ 2 ∧ (s.button 2).down then s.pressVoid b
    else if b = 1 ∧ s.lf = lfRetained then
      if s.wakeHolds 2 then (((s.setButton 1 { down := true, used := true }).pressed 1 3).retentionWake 2) else s.pressVoid 1
    else s

/-- Button b has been held to a threshold: 3 s of SERVICE, 0.5 s or 10 s of RESET. -/
def State.hold (s : State) (b : Nat) : State :=
  let x := s.button b
  if s.life.off || !x.down || x.used then s
  else if s.buttonsOff then s.pressVoid b
  else match b with
    | 1 =>
      let s := (s.setButton 1 { x with used := true }).blackout
      if s.svState = svRunning then (s.pressed 1 1).stopBegin svQuiesced 1 0
      else if s.svState = svStarting then (s.pressed 1 1).modSvc fun v => { v with quiesce := true }
      else if s.svState = svQuiesced then (s.pressed 1 2).resumeBegin
      else s.pressVoid 1
    | 2 => s.blackout
    | _ => s

/-- Does a release of button b after `ms` restart a tray that a controlled power-down has turned off: a RESET press of 0.5 s,
through the hot-swap controller, without the island (R607, R647). -/
def State.restarts (s : State) (b ms : Nat) : Bool :=
  s.life.off && s.lf == lfPowerdown && b == 2 && decide (500 ≤ ms)

/-- Button b reads released after `ms` from its accepted press. -/
def State.released' (s : State) (b ms : Nat) : State :=
  let x := s.button b
  let s := ((s.setF Reg.MGMT_BTN b b 0).setF Reg.MGMT_BTN (4 + b) (4 + b) 0).setButton b {}
  if !x.down || x.used then s
  else if s.buttonsOff then (s.pressVoid b).setButton b {}
  else if b = 0 ∧ ms ≤ 3000 then
    let on := !s.bit Reg.RANGER_SVC 4
    ((s.setBit Reg.RANGER_SVC 4 on).emit (.trayIdent on)).pressed 0 0
  else if b = 2 ∧ 500 ≤ ms ∧ ms < 10000 then (s.pressed 2 4).askTrayReset rcButton
  else if b = 2 ∧ 10000 ≤ ms ∧ ms < 60000 then (s.askClear.pressed 2 5).askTrayReset rcButton
  else s

/-- Button b has read pressed for 60 s (R651). -/
def State.stuck (s : State) (b : Nat) : State :=
  if s.life.off || !(s.button b).down || s.bit Reg.MGMT_BTN (4 + b) then s
  else ((s.setBit Reg.MGMT_BTN (4 + b) true).setButton b { down := true, used := true }).raise 0x8003 b

/-! ### Lights (R648, R654) -/

inductive Colour where
  | amber | green | both | blue
  deriving DecidableEq, Repr

/-- What a light shows: nothing, a colour, a colour for some ms of a period, or amber and green in turn. -/
inductive Light where
  | dark
  | steady (c : Colour)
  | blink (c : Colour) (on period : Nat)
  | alternate (period : Nat)
  deriving DecidableEq, Repr

/-- Off for 0.5 s after a hold threshold. -/
def State.blanked (s : State) : Bool := match s.panel.blank with | some t => decide (s.now < t + 500000000) | none => false

/-- Every LED lit: the lamp test, and the first 0.5 s after power-on. -/
def State.lampTest (s : State) : Bool := s.bit Reg.MGMT_LED 0 || decide (s.now < 500000000)

/-- The chip's LED (Table 20-6). -/
def State.chipLight (s : State) : Light :=
  if s.lampTest then .steady .both
  else if s.blanked then .dark
  else if s.life.failed then .blink .amber 125 250
  else if s.svState = svRecovery then .alternate 1000
  else if s.lf = lfPowerdown ∨ s.lf = lfInputLoss then .blink .amber 500 1000
  else if s.svState = svMaint then .blink .amber 200 2000
  else if s.svState = svBoot then .steady .amber
  else if s.svState = svStarting ∨ s.svState = svStopping then .blink .green 125 250
  else if s.svState = svRunning then .steady .green
  else if s.svState = svQuiesced then .blink .green 200 2000
  else if s.svState = svIdle then .blink .green 500 1000
  else if s.lf = lfRetained then .blink .green 100 5000
  else .dark

/-- The attention LED, as this chip's own state lights it (Table 20-6). -/
def State.attentionLight (s : State) : Light :=
  if s.lampTest then .steady .blue
  else if s.blanked then .dark
  else if s.bit Reg.RANGER_SVC 4 then .blink .blue 125 250
  else if s.bit Reg.RANGER_SVC 5 || s.life.failed || s.panel.slow != 0 || s.faultCodes.contains 0x2012 then .steady .blue
  else if s.bit Reg.MGMT_BLZ_SVC 0 then .blink .blue 500 1000
  else .dark

/-! ### Pads (R701, R705) -/

/-- The line of transmitter k between characters: 0 in a break, up to its one bit time of mark (R690). -/
def State.txLine (s : State) (k : Nat) : Bool :=
  match (s.uart k).breakUntil with
  | some t => decide (t ≤ s.now + 160 * s.uartDiv k)
  | none => true

/-- What the chip drives on the pad of pin i, none where it releases it: GPIO by OE; a transmitter's mark, or its break;
SFP_TXDIS until MAC 4 is enabled; TIME_PPS for 100 ms of each second; HS_OFF once the input is to go off.  The bits of a
character and of a bus transaction are within one command, and do not show. -/
def State.padDrives (s : State) (i : Nat) : Option Bool :=
  let carries := fun (p : Nat × Nat) => p.1 == i && s.pinIs p.1 p.2
  if s.pinIs i 0 then (if s.bit Reg.PINS_GPIO_OE i then some (s.bit Reg.PINS_GPIO_OUT i) else none)
  else if (txdPins 0).any carries then some (s.txLine 0)
  else if (txdPins 1).any carries then some (s.txLine 1)
  else if s.pinIs i 1 ∧ i = 29 then some (!s.bit (Reg.MAC_CTRL 4) 0)
  else if s.pinIs i 2 ∧ i = 29 then some (decide (s.timeNow % 1000000000 < 100000000))
  else if s.pinIs i 1 ∧ i = 24 then some s.life.off
  else none

/-! ### Hold-up (R742) -/

/-- The hold-up bank has stood below 140 V for 1 s, with the input within its range. -/
def State.holdup (s : State) (decivolts : Nat) : State :=
  let vin := s.getF Reg.MGMT_VIN 15 0
  if s.life.off || s.pos != 0 || decide (1400 ≤ decivolts) || !decide (770 ≤ vin ∧ vin ≤ 1375) then s
  else s.raise 0x5220 0 decivolts

/-! ### Recovery blocks as characters (R508) -/

/-- The whole block that the boot ROM's buffer begins with, and what follows it; bytes before SOH are dropped. -/
def recWhole (b : List Byte) : Option (Nat × Nat × List Byte × Nat) × List Byte :=
  let b := b.dropWhile fun x => x != 1#8
  let n := leAt b 4 2
  if b.length < 6 ∨ b.length < 8 + n then (none, b)
  else (some (leAt b 1 1, leAt b 2 2, (b.drop 6).take n, leAt b (6 + n) 2), b.drop (8 + n))

/-- In RECOVERY the boot ROM takes the characters of UART0 and handles a block that they complete. -/
def State.recChars (s : State) : State :=
  if !s.recoveryOn || (s.uart 0).rx.isEmpty then s
  else
    let bs := (s.uart 0).rx.map fun (w : Word) => w.setWidth 8
    let s := s.modUart 0 fun u => { u with rx := [] }
    let (blk, rest) := recWhole (s.svc.recPart ++ bs)
    let s := s.modSvc fun v => { v with recPart := rest }
    match blk with
    | none => s
    | some (type, seq, p, crc) =>
      let (ok, s) := s.draw 1
      if 1 ≤ type ∧ type ≤ 4 then s.recBlock type seq p crc (ok == 1#1) else State.recAnswer seq (s.ans ttBadMsg)

end Sys2Proof.Machine
end

