-- ==== Sys2Proof/Machine/PanelCmds.lean ====
section
/-! DEFINITION. The commands of chapters 20 and 24: ports, cables, buttons and the supply. -/

namespace Sys2Proof.Machine
open Sys2Proof

/-- An agent writes a register whose effect takes an operand of the row: judged as any access, then `f`. -/
def State.judged (s : State) (a : Agent) (off : Nat) (f : State → State) : State :=
  match s.regReason a off 4 off with
  | some r => (s.regRefused a.index off true r false).regFault a (s.regAddr off) r true
  | none => if s.regStall a true then s else f s

/-- DETECTION_CYCLE (R640, Table 20-3). -/
def execDetectionCycle (k : Fin 4) (sig : PortSig) (granted : Bool) (s : State) : Out :=
  .next (s.live fun s => s.detect k.val sig granted)

/-- PHY_LINK_UP (R643): speed, the partner's address, and the estimate of the cable. -/
def execPhyLinkUp (k : Fin 4) (speed : BitVec 3) (partner : Dword) (lengths : Word) (s : State) : Out :=
  .next (s.live fun s => s.portUp k.val speed.toNat partner lengths)

/-- PHY_LINK_DOWN (R643). -/
def execPhyLinkDown (k : Fin 4) (s : State) : Out :=
  .next (s.live fun s => s.portDown k.val)

/-- CABLE_TDR_TIMER (R643). -/
def execCableTdrTimer (k : Fin 4) (s : State) : Out :=
  .next (s.live fun s => s.tdrTimer k.val)

/-- CABLE_TEST (R643): MGMT_PORTk_CTRL written with CABLE_TEST 1; `lengths` is what an estimate reads. -/
def execCableTest (a : Agent) (k : Fin 4) (v : Word) (lengths : Word) (s : State) : Out :=
  .next (s.live fun s =>
    s.judged a (Reg.MGMT_PORT_CTRL k.val) fun s => s.portCtrl k.val (fixBits v [1] []) lengths)

/-- REFLECTOMETRY_TEST_END (R643). -/
def execReflectometryTestEnd (k : Fin 4) (faults : BitVec 12) (dist : BitVec 16) (s : State) : Out :=
  .next (s.live fun s => s.tdrEnd k.val faults.toNat dist.toNat)

/-- CURRENT_SAMPLE (R642). -/
def execCurrentSample (k : Fin 4) (ma : BitVec 16) (mps : Bool) (s : State) : Out :=
  .next (s.live fun s => s.currentSample k.val ma.toNat mps)

/-- PORT_ENABLE_WRITE (R640): MGMT_PORTk_CTRL written with CABLE_TEST 0. -/
def execPortEnableWrite (a : Agent) (k : Fin 4) (v : Word) (s : State) : Out :=
  .next (s.live fun s => s.agentWrite a (Reg.MGMT_PORT_CTRL k.val) (fixBits v [] [1]))

/-- VIN_SAMPLE (R644). -/
def execVinSample (vin iin : BitVec 16) (s : State) : Out :=
  .next (s.live fun s => s.vinSample vin.toNat iin.toNat)

/-- BUTTON_PRESS (R646 to R649). -/
def execButtonPress (b : Fin 3) (s : State) : Out :=
  .next (s.live fun s => s.press b.val)

/-- BUTTON_HOLD (R646 to R649): the threshold of the button is reached. -/
def execButtonHold (b : Fin 3) (s : State) : Out :=
  .next (s.live fun s => s.hold b.val)

/-- BUTTON_RELEASE (R646 to R649), after so many milliseconds; once the tray's input is off a RESET press restarts it. -/
def execButtonRelease (b : Fin 3) (ms : Nat) (s : State) : Out :=
  .next (if s.restarts b.val ms then s.powerOn (s.pinLevel.setWidth 9) s.life.tag
    else s.live fun s => s.released' b.val ms)

/-- BUTTON_STUCK (R651). -/
def execButtonStuck (b : Fin 3) (s : State) : Out :=
  .next (s.live fun s => s.stuck b.val)

/-- HOLDUP_LOW (R742): the hold-up bank in 0.1 V. -/
def execHoldupLow (decivolts : BitVec 16) (s : State) : Out :=
  .next (s.live fun s => s.holdup decivolts.toNat)

end Sys2Proof.Machine
end

