-- ==== Sys2Proof/Machine/YarderIn.lean ====
section
/-! DEFINITION. What arrives at the Yarder: the judgement of requests from other chips (R435), responses, and the
dispatch of packets (R419, R420, R428, R445). -/

namespace Sys2Proof.Machine
open Sys2Proof

/-! ### Status codes (Table 13-5) -/

/-- STATUS of a refusal by its cause. -/
def statusOf (cause : Nat) : Nat := match cause with | 0x07 => 5 | 0x09 => 6 | 0x06 => 8 | _ => 4

/-- The cause that a requester takes for a STATUS of 4 to 8. -/
def causeOf (status : Nat) : Option Nat :=
  match status with | 4 => some 0x0A | 5 => some 0x07 | 6 => some 0x09 | 7 => some 0x0A | 8 => some 0x06 | _ => none

/-- The response packet to a request: TYPE, STATUS, and data words with their POISON bits. -/
def State.responsePacket (s : State) (p : Packet) (type status : Nat) (data : List Byte) (poison : Bool) : Packet :=
  { p with type := BitVec.ofNat 8 type, vc := 1, nword := BitVec.ofNat 5 ((data.length + 63) / 64),
           src := BitVec.ofNat 8 s.chipId, dst := p.src, status := BitVec.ofNat 4 status, hops := 0,
           poison := BitVec.ofNat 16 (b2n poison), data := data }

/-! ### Requests (R435, R436) -/

/-- The operation of a request packet, its first byte, its length and its kind; `none` for other packets. -/
def requestOp (p : Packet) : Option (TOp × Nat × Nat × WinKind) :=
  let a := p.addr.toNat
  let len := if p.size = 0 then 64 else min p.size.toNat (64 - a % 64)
  let lo := if p.size = 0 then a / 64 * 64 else a
  let slot := a / 64 * 64
  let pad := (p.data ++ List.replicate 64 0).take 64
  match p.type.toNat with
  | 0x01 => some (.read len, lo, len, .read)
  | 0x02 => some (.write [(0, (pad.drop (lo % 64)).take len)], lo, len, .write)
  | 0x03 => some (.feRead (p.size != 0), slot, 64, .fe)
  | 0x04 => some (.feWrite (pad.take (if p.size = 0 then 64 else len)), slot, 64, .fe)
  | 0x05 => some (.fePeek, slot, 64, .fe)
  | 0x06 => some (.feSet, slot, 64, .fe)
  | 0x07 => some (.feClear, slot, 64, .fe)
  | 0x20 => some (.write ((List.range p.nword.toNat).map fun i =>
      (64 * i, ((p.data.drop (64 * i)) ++ List.replicate 64 0).take 64)), slot, 64 * p.nword.toNat, .write)
  | _ => none

/-- TYPE of the response to a request (Table 13-4). -/
def responseType (type : Nat) : Nat :=
  match type with | 0x01 => 0x10 | 0x02 => 0x11 | 0x20 => 0x21 | _ => 0x12

/-- The words of tile n that an access touches. -/
def State.wordsAt (s : State) (n o len : Nat) : List Nat := (wordStarts o len).map (s.spWord n)

/-- Serve an admitted request of several words or one: steps 4 and 5 of R435. -/
def State.serveRequest (s : State) (p : Packet) (op : TOp) (a len : Nat) : Served × State :=
  let n := a / 2 ^ 20 % 256
  let o := a % 2 ^ 20
  match op with
  | .write segs =>
    match (wordStarts o len).find? fun x => s.ownerOf n (s.spWord n x) != oSeq with
    | some x => if s.reachable n then (.resp (.refused 0x07), s.refuseAt n x rqYard)
                else s.serveSp n o op 151 rqYard
    | none =>
      segs.zipIdx.foldl (fun (acc : Served × State) x =>
        match acc with
        | (.resp (.refused e), s) => (.resp (.refused e), s)
        | (_, s) => s.serveSp n (o + x.1.1) (.write [(0, x.1.2)]) 151 rqYard (p.poison.getLsbD x.2)) (.resp .ack, s)
  | _ => s.serveSp n o op 151 rqYard (p.poison.getLsbD 0)

/-- The response to a served or refused request leaves; a refusal raises event 0x3200 and is counted in the window. -/
def State.reply (s : State) (p : Packet) (win : Option Nat) (op : TOp) (a : Nat) (r : Served) : State :=
  let t := responseType p.type.toNat
  let send := fun (status : Nat) (data : List Byte) (poison : Bool) (s : State) =>
    s.sendPacket (s.responsePacket p t status data poison)
  let refuse := fun (status : Nat) => send status [] false (s.refuseArrival win p.src.toNat status a)
  match r with
  | .resp (.data bs poison full) =>
    let word := (placeAt (if op.isFe then 0 else a % 64) bs ++ List.replicate 64 0).take 64
    send (if p.type.toNat = 0x05 ∧ full then 1 else 0) word poison s
  | .resp .ack => send 0 [] false s
  | .resp (.refused e) => refuse (statusOf e)
  | .resp .retry => s
  | .notReady => refuse (if op.feData.isSome then 2 else 3)

/-- A request that a window admits is served, or waits while its bank is initialised or handed over. -/
def State.admitted (s : State) (p : Packet) (w : Nat) : State :=
  match requestOp p with
  | none => s
  | some (op, a, len, _) =>
    let n := a / 2 ^ 20 % 256
    let ws := s.wordsAt n (a % 2 ^ 20) len
    if s.reachable n && (s.initBusy n || ws.any fun x => s.handoverHolds n x (if op.isFe then s.ownerOf n x else oSeq)) then
      { s with heldReqs := s.heldReqs ++ [(p, w)] }
    else
      let (r, s) := s.serveRequest p op a len
      s.reply p (some w) op a r

/-- A request from another chip is judged in the order of R435. -/
def State.judge (s : State) (p : Packet) : State :=
  match requestOp p with
  | none => s
  | some (op, a, len, kind) =>
    let refuse := fun (win : Option Nat) (status : Nat) (s : State) =>
      let q := s.responsePacket p (responseType p.type.toNat) status [] false
      (s.refuseArrival win p.src.toNat status a).sendPacket q
    match regByte a with
    | some (_, off, al) => refuse none 8 (s.regRefused 151 off (op.feData.isSome || kind == .write) 2 al)
    | none =>
      let s := s.voteRange (Reg.YFAB_WIN 0 0) 0x2000
      if !inScratchpads a len then refuse none 7 s
      else match s.findWindow p.src.toNat a len kind with
        | none => refuse (s.windowAt a len) 4 s
        | some w => s.admitted p w

/-- The requests that waited at a bank are served, if they can be now. -/
def State.heldGo (s : State) : State :=
  s.heldReqs.foldl (fun (s : State) (x : Packet × Nat) => s.admitted x.1 x.2) { s with heldReqs := [] }

/-! ### Responses (R420, R423) -/

/-- The response that a packet stands for, to a transaction's operation. -/
def responseOf (p : Packet) (t : Txn) : Option Resp :=
  let word := (p.data ++ List.replicate 64 0).take 64
  let poison := p.poison.getLsbD 0
  match p.status.toNat with
  | 0 => match t.op with
    | .read n => some (.data ((word.drop (t.addr % 64)).take n) poison false)
    | .feRead _ => some (.data word poison true)
    | .fePeek => some (.data word poison false)
    | _ => some .ack
  | 1 => if t.op = .fePeek then some (.data word poison true) else none
  | 2 | 3 => some .retry
  | k => (causeOf k).map .refused

/-- A part of the answer to a transaction of several packets, before its last one. -/
def Txn.part (t : Txn) (r : Resp) : Txn :=
  let t := { t with left := t.left - 1 }
  match r with
  | .data bs p _ => { t with buf := t.buf ++ bs, pois := t.pois || p }
  | .refused e => { t with bad := t.bad.or (some e) }
  | _ => t

/-- The answer to a transaction, of which `r` is the last part: the first refusal, or all the data. -/
def Txn.whole (t : Txn) (r : Resp) : Resp :=
  match t.bad, r with
  | some e, _ => .refused e
  | none, .data bs p full => .data (t.buf ++ bs) (t.pois || p) full
  | none, r => r

/-- A response packet to the transaction of one tag (R420): with the last of its packets the answer is delivered; one whose
tag has been freed is late (R398).  A request that has not left the mesh yet leaves it before it can be answered. -/
def State.responseTo (s : State) (tag : Nat) (p : Packet) : State :=
  let s := s.leaveMesh tag
  match s.txn tag with
  | none => s.deliver tag
  | some t =>
    if !t.out || t.st != .sent then s
    else match responseOf p t with
      | none => s
      | some r =>
        if t.left ≤ 1 then (s.setTxn tag { t with st := .answered (t.whole r) }).deliver tag
        else
          let s := s.setTxn tag (t.part r)
          if t.freed then s.lateResponse t.agent tag else s

/-- Did link k send a WR_BULK to chip c under a bulk ID that is in use; and does it hold address `a`, if one is given. -/
def State.bulkTo (s : State) (k id c : Nat) (a : Option Nat) : Bool :=
  ((s.link k).bulk.get [] id).any fun tag => match s.txn tag with
    | some t => decide (t.addr / 2 ^ 40 = c) && (match a with
      | some a => decide (t.addr % 2 ^ 40 ≤ a ∧ a < t.addr % 2 ^ 40 + t.op.span)
      | none => true)
    | none => false

/-- A BULK_ACK answers every tag recorded under its bulk ID on the link that sent its WR_BULK (R423), whichever link the
answer comes by (R428): the one whose writes hold its address, or else one that has the ID in use toward the answering
chip, the arrival link before the others. -/
def State.bulkAck (s : State) (k : Nat) (p : Packet) : State :=
  let id := p.tag.toNat % 64
  let ks := k :: List.range 64
  let k := ((ks.find? fun j => s.bulkTo j id p.src.toNat (some p.addr.toNat)).or
    (ks.find? fun j => s.bulkTo j id p.src.toNat none)).getD k
  let tags := (s.link k).bulk.get [] id
  let s := s.modLink k fun l => { l with bulk := l.bulk.set [] id [] }
  let s := tags.foldl (fun (s : State) tag => s.responseTo tag p) s
  s.pump k (s.link k).txq.length

/-! ### Dispatch -/

/-- What a packet for this chip does; `bus` is what the tray management bus says of a GRANT. -/
def State.packetFor (s : State) (k : Nat) (p : Packet) (bus : BusSays) : State :=
  let src := p.src.toNat
  match p.type.toNat with
  | 0x10 | 0x11 | 0x12 => s.responseTo (p.tag.toNat % 2 ^ 17) p
  | 0x21 => s.bulkAck k p
  | 0x32 => s.failoverFrom src (p.tag.toNat % 64) (p.tag.toNat / 256 % 256)
  | 0x33 => s.closeNote src (p.tag.toNat % 256) p.addr.toNat (p.poison.toNat % 2 ^ 15)
  | 0x34 => s.winDrained (p.tag.toNat % 256) src
  | 0x40 | 0x41 | 0x42 => s.powerMsg p.type.toNat p.data bus
  | t => if t < 0x30 then s.judge p else s

/-- A packet arrives complete on link k: an invalid one is discarded with event 0x3006 (R445), the handshake is the
link's own, one for another chip is forwarded (R428); the credits of its units return (R416). -/
def State.packetIn (s : State) (k : Nat) (p : Packet) (bus : BusSays) : State :=
  let credits := fun (s : State) => if s.lstate k = lkUp then s.sendIdle k false p.vc.toNat (packetUnits p) else s
  if !packetValid p then credits ((s.count (Reg.YARDER k Reg.YARDER_BADPKT)).raise 0x3006 k p.type.toNat)
  else if p.type = 0x30#8 then s.helloIn k (helloOf p.data)
  else if p.type = 0x31#8 then s.helloAckIn k (helloOf p.data)
  else if s.lstate k ≠ lkUp then s
  else
    credits (if p.dst.toNat = s.chipId then s.packetFor k p bus else s.forward p)

/-- A packet of a row of the table: TYPE, VC and NWORD are the row's. -/
def rowHead (p : Packet) (type vc nword : Nat) : Packet :=
  { p with type := BitVec.ofNat 8 type, vc := BitVec.ofNat 2 vc, nword := BitVec.ofNat 5 nword }

/-- The Yarder works: the chip is on, and its link reference runs. -/
def State.yarderOn (s : State) : Bool := !s.life.off && !s.life.refLost

/-- A packet of a row arrives. -/
def State.rowPacket (s : State) (k : Nat) (p : Packet) (bus : BusSays := ⟨false, 0⟩) : State :=
  if s.yarderOn then s.packetIn k p bus else s

/-- A flit arrives (R410 to R414): its packets are handled in order; the answer to a GRANT among them is open. -/
def State.flitArrives (s : State) (k : Nat) (bytes : List Byte) : State :=
  if s.yarderOn then
    let (ps, s) := s.flitIn k bytes
    ps.foldl (fun (s : State) p => let (b, s) := s.busDraw; s.packetIn k p b) s
  else s

end Sys2Proof.Machine
end

