-- ==== Sys2Proof/Machine/PowerCmds.lean ====
section
/-! DEFINITION. The commands of chapters 16 and 17: estimation, the cap loop, gating, quadrants, sensors, the rack's power protocol and
the regulator alert. -/

namespace Sys2Proof.Machine
open Sys2Proof

/-- A power message of a row: TYPE, on the control channel with one data word. -/
def State.powerRow (s : State) (k type : Nat) (p : Packet) (bus : BusSays := ⟨false, 0⟩) : State :=
  (s.rowPacket k (rowHead p type 3 1) bus).budgetAnswers

/-- ESTIMATOR_PERIOD (R531): the counts of each domain in its 10 µs. -/
def execEstimatorPeriod (counts : List (List Nat)) (s : State) : Out :=
  .next (s.live fun s => s.estimate counts)

/-- CALIBRATION (R532): the measurements of the domains in 0.01 W, where there is one. -/
def execCalibration (ms : List (Option (BitVec 16))) (s : State) : Out :=
  .next (s.live fun s => s.calibrateAll ms)

/-- MEAS_MISSING (R555). -/
def execMeasMissing (d : Fin 8) (rail : BitVec 8) (s : State) : Out :=
  .next (s.live fun s => s.measMissing d.val rail.toNat)

/-- CAP_LOOP_ITERATION (R535 to R544): an input loss holds OP0 (Table 18-13). -/
def execCapLoopIteration (s : State) : Out :=
  .next (s.live fun s => (s.capIteration s.life.shed).afterIteration)

/-- RAIL_SETTLED (R519, Table 16-2). -/
def execRailSettled (q : Fin 4) (s : State) : Out :=
  .next (s.live fun s => s.railSettled q.val)

/-- PLL_LOCKED (R519, R596, Table 17-4). -/
def execPllLocked (q : Fin 4) (s : State) : Out :=
  .next (s.live fun s => s.pllReached q.val)

/-- FIXED_ACK (R544): PWR_FIXED written with ACK 1. -/
def execFixedAck (a : Agent) (v : Word) (s : State) : Out :=
  .next (s.live fun s => s.agentWrite a Reg.PWR_FIXED (fixBits v [12] []))

/-- OP_ENTRY_WRITE (R518). -/
def execOpEntryWrite (a : Agent) (k : Fin 16) (v : Word) (s : State) : Out :=
  .next (s.live fun s => s.agentWrite a (Reg.PWR_OP k.val) v)

/-- CAP_FLOOR_WRITE (R538): PWR_FLOOR or PWR_CAP written. -/
def execCapFloorWrite (a : Agent) (floor : Bool) (v : Word) (s : State) : Out :=
  .next (s.live fun s => s.agentWrite a (if floor then Reg.PWR_FLOOR else Reg.PWR_CAP) v)

/-- PRIO_WRITE (R539). -/
def execPrioWrite (a : Agent) (v : Word) (s : State) : Out :=
  .next (s.live fun s => s.agentWrite a Reg.PWR_PRIO v)

/-- TILE_GATE (R525, R527): the tile has been IDLE or HALTED for GATE_DELAY, under one of the conditions. -/
def execTileGate (n : Fin 144) (s : State) : Out :=
  .next (s.live fun s => if s.gateable n && s.gateWanted n then s.gateTile n else s)

/-- TILE_WAKE (R526): PWR_TWAKEi written. -/
def execTileWake (a : Agent) (i : Fin 5) (v : Word) (s : State) : Out :=
  .next (s.live fun s => s.agentWrite a (Reg.PWR_TWAKE i.val) v)

/-- TILE_WAKE_COMPLETE (R526, R527): requests that waited at the banks follow. -/
def execTileWakeComplete (n : Fin 144) (s : State) : Out :=
  .next (s.live fun s => ((s.wakeEnd n).regDrain n).heldGo)

/-- QUADRANT_REQUEST (R528): PWR_Qq_CTRL written. -/
def execQuadrantRequest (a : Agent) (q : Fin 4) (v : Word) (s : State) : Out :=
  .next (s.live fun s => s.agentWrite a (Reg.PWR_Q_CTRL q.val) v)

/-- QUADRANT_ENTRY_COMPLETE (R528, Table 16-4). -/
def execQuadrantEntryComplete (q : Fin 4) (s : State) : Out :=
  .next (s.live fun s => s.quadEntered q.val)

/-- QUADRANT_WAKE_COMPLETE (R529). -/
def execQuadrantWakeComplete (q : Fin 4) (s : State) : Out :=
  .next (s.live fun s => (s.quadWoken q.val).heldGo)

/-- WAIT_PERIOD_END (R545, R566, R567). -/
def execWaitPeriodEnd (s : State) : Out :=
  .next (s.live fun s => s.periodEnd.budgetAnswers)

/-- DROOP_DETECT (R547, R548). -/
def execDroopDetect (q : Fin 4) (s : State) : Out :=
  .next (s.live fun s => s.droop q.val)

/-- DROOP_END (R547, R548), after so many stretched cycles. -/
def execDroopEnd (q : Fin 4) (stretched : BitVec 32) (s : State) : Out :=
  .next (s.live fun s => s.droopDone q.val stretched.toNat)

/-- SENSOR_CONVERSION (R549). -/
def execSensorConversion (ts : List (Option (BitVec 12))) (s : State) : Out :=
  .next (s.live fun s => s.convert ts)

/-- SENSOR_INVALID (R557). -/
def execSensorInvalid (i : Fin 36) (s : State) : Out :=
  .next (s.live fun s => s.sensorInvalid i.val)

/-- THERMAL_TRIP (R552, R55): the next start places the programs again (R510). -/
def execThermalTrip (i : Fin 36) (s : State) : Out :=
  .next (s.live fun s => (s.thermalTrip i.val).modSvc fun v => { v with reload := true })

/-- TRIP_CLEAR (R552): THERM_TRIP written. -/
def execTripClear (a : Agent) (v : Word) (s : State) : Out :=
  .next (s.live fun s => s.agentWrite a Reg.THERM_TRIP v)

/-- REPORT (R570, R581): TYPE 0x40. -/
def execReport (k : Fin 64) (p : Packet) (s : State) : Out :=
  .next (s.live fun s => s.powerRow k.val 0x40 p)

/-- GRANT (R568, R569): TYPE 0x41, and what the islands of the tray say to it. -/
def execGrant (k : Fin 64) (p : Packet) (bus : BusCaps) (s : State) : Out :=
  .next (s.live fun s => s.powerRow k.val 0x41 p ⟨bus.fits, bus.others.toNat⟩)

/-- GRANT_ACK (R564, R570): TYPE 0x42. -/
def execGrantAck (k : Fin 64) (p : Packet) (s : State) : Out :=
  .next (s.live fun s => s.powerRow k.val 0x42 p)

/-- CRUISER_CYCLE (R570, R571). -/
def execCruiserCycle (s : State) : Out :=
  .next (s.live fun s => s.cruiserCycle.budgetAnswers)

/-- DECREASE_TIMEOUT (R570). -/
def execDecreaseTimeout (c : Fin 64) (s : State) : Out :=
  .next (s.live fun s => s.decreaseTimeout c.val)

/-- ENVELOPE_MISSING (R582): the Cruiser assumes 350 W. -/
def execEnvelopeMissing (tray : Fin 16) (s : State) : Out :=
  .next (s.live fun s =>
    if s.isCruiser then { s with rack := { s.rack with envs := s.rack.envs.set 350 tray.val 350 } } else s)

/-- POE_GRANT_REQUEST (R574): the class that the port asks for, or none where a port of another chip reads off and chip 0's
island releases its grant. -/
def execPoeGrantRequest (c : Fin 16) (cls : Option (Fin 7)) (granted : Bool) (s : State) : Out :=
  .next (s.live fun s => match cls with
    | some k => s.poeAsk c.val k.val granted
    | none => s.poeFree c.val)

/-- POE_BUDGET_WRITE (R575). -/
def execPoeBudgetWrite (a : Agent) (v : Word) (s : State) : Out :=
  .next (s.live fun s => s.agentWrite a Reg.MGMT_POE_BUDGET v)

/-- POE_OVERLOAD (R575): the input of the 54 V converter over 50 ms. -/
def execPoeOverload (input : PoeInput) (s : State) : Out :=
  .next (s.live fun s => s.poeOverload input.tenths.toNat (input.off.map (·.val)))

/-- REGULATOR_ALERT (R576, Table 17-4). -/
def execRegulatorAlert (s : State) : Out :=
  .next (s.live fun s => s.alert)

/-- ALERT_RELEASE (R576, Table 17-4). -/
def execAlertRelease (s : State) : Out :=
  .next (s.live fun s => s.alertHigh)

/-- ALERT_ACK (R577): PWR_ALERT written with ACK 1. -/
def execAlertAck (a : Agent) (v : Word) (s : State) : Out :=
  .next (s.live fun s => s.agentWrite a Reg.PWR_ALERT (fixBits v [3] []))

end Sys2Proof.Machine
end

