-- ==== Sys2Proof/Machine/RuntimeCmds.lean ====
section
/-! DEFINITION. The commands of chapter 15: findings, the service, TTCP, the console and recovery. -/

namespace Sys2Proof.Machine
open Sys2Proof

/-- A console command that is refused as BAD_MSG before it acts. -/
def State.consoleBad (s : State) : State := if s.consoleOn then s.emit (.console [] ttBadMsg) else s

/-- FINDINGS_POLL (R498, R499): this chip's rings, and on chip 0 the records that the other chips hand on. -/
def execFindingsPoll (peers : List (List Byte)) (s : State) : Out :=
  .next (s.live fun s => if s.runtimeOn 1 then s.pollFindings peers else s)

/-- FINDINGS_DATAGRAM (R500). -/
def execFindingsDatagram (s : State) : Out :=
  .next (s.live fun s => if s.runtimeOn 1 then s.findingsDatagram else s)

/-- PORT_TABLE_REFRESH (R501): `others` are the entries that the other chips report. -/
def execPortTableRefresh (others : List (Fin 19 × List Byte)) (s : State) : Out :=
  .next (s.live fun s => s.refreshPorts (others.map fun o => (o.1.val, o.2)))

/-- TASK_FAULT_NOTICE (R511). -/
def execTaskFaultNotice (n : Fin 144) (s : State) : Out :=
  .next (s.live fun s => s.taskFault n.val)

/-- SERVICE_RESTART (R511). -/
def execServiceRestart (s : State) : Out :=
  .next (s.live fun s => s.restartService)

/-- SERVICE_DRAIN_END (R495, Table 15-5, step 2). -/
def execServiceDrainEnd (limit : Bool) (s : State) : Out :=
  .next (s.live fun s => s.drainEnds limit)

/-- TTCP HELLO (R502, Table 15-9). -/
def execTtcpHello (q : Ttcp) (s : State) : Out :=
  .next (s.live fun s => s.ttcpIn q 0x01)

/-- TTCP STATUS (R502). -/
def execStatus (q : Ttcp) (s : State) : Out :=
  .next (s.live fun s => s.ttcpIn q 0x02)

/-- TTCP PORTS (R501). -/
def execPorts (q : Ttcp) (s : State) : Out :=
  .next (s.live fun s => s.ttcpIn q 0x03)

/-- TTCP REG_READ (R505). -/
def execRegRead (q : Ttcp) (s : State) : Out :=
  .next (s.live fun s => s.ttcpIn q 0x04)

/-- TTCP REG_WRITE (R505). -/
def execRegWrite (q : Ttcp) (s : State) : Out :=
  .next (s.live fun s => s.ttcpIn q 0x05)

/-- TTCP TALLY (R502). -/
def execTally (q : Ttcp) (s : State) : Out :=
  .next (s.live fun s => s.ttcpIn q 0x06)

/-- TTCP NET_SET (R516). -/
def execNetSet (q : Ttcp) (s : State) : Out :=
  .next (s.live fun s => s.ttcpIn q 0x07)

/-- TTCP START (R494). -/
def execStart (q : Ttcp) (answers : Bool) (s : State) : Out :=
  .next (s.live fun s => s.ttcpIn q 0x10 answers)

/-- TTCP STOP (R495). -/
def execStop (q : Ttcp) (s : State) : Out :=
  .next (s.live fun s => s.ttcpIn q 0x11)

/-- TTCP QUIESCE (R495). -/
def execQuiesce (q : Ttcp) (s : State) : Out :=
  .next (s.live fun s => s.ttcpIn q 0x12)

/-- TTCP RESUME (R495, R605). -/
def execResume (q : Ttcp) (s : State) : Out :=
  .next (s.live fun s => s.ttcpIn q 0x13)

/-- TTCP FIND_DEST (R500). -/
def execFindDest (q : Ttcp) (s : State) : Out :=
  .next (s.live fun s => s.ttcpIn q 0x18)

/-- TTCP FIND_REPLAY (R500). -/
def execFindReplay (q : Ttcp) (s : State) : Out :=
  .next (s.live fun s => s.ttcpIn q 0x19)

/-- TTCP UPD_BEGIN (R505). -/
def execUpdBegin (q : Ttcp) (s : State) : Out :=
  .next (s.live fun s => s.ttcpIn q 0x20)

/-- TTCP UPD_DATA (R505). -/
def execUpdData (q : Ttcp) (ok : Bool) (s : State) : Out :=
  .next (s.live fun s => s.ttcpIn q 0x21 true ok)

/-- TTCP UPD_COMMIT (R505). -/
def execUpdCommit (q : Ttcp) (ok : Bool) (s : State) : Out :=
  .next (s.live fun s => s.ttcpIn q 0x22 true ok)

/-- TTCP BUDGET (R565, R571). -/
def execBudget (q : Ttcp) (s : State) : Out :=
  .next (s.live fun s => s.ttcpIn q 0x30)

/-- TTCP PTP_ROLE (R503). -/
def execPtpRole (q : Ttcp) (s : State) : Out :=
  .next (s.live fun s => s.ttcpIn q 0x31)

/-- TTCP IDENT (R502). -/
def execIdent (q : Ttcp) (s : State) : Out :=
  .next (s.live fun s => s.ttcpIn q 0x40)

/-- TTCP RETAIN (R604). -/
def execRetain (q : Ttcp) (s : State) : Out :=
  .next (s.live fun s => s.ttcpIn q 0x41)

/-- TTCP RESET (R502, R607). -/
def execReset (q : Ttcp) (s : State) : Out :=
  .next (s.live fun s => s.ttcpIn q 0x42)

/-- Console status (R506): the STATUS and HELLO fields. -/
def execConsoleStatus (ready : BitVec 4) (s : State) : Out :=
  .next (s.live fun s =>
    if s.consoleOn then s.emit (.console (s.statusPayload ++ s.helloPayload ready s.svState) 0) else s)

/-- Console ports (R506): all 19 entries, or one. -/
def execConsolePorts (p : Option (Fin 19)) (s : State) : Out :=
  .next (s.live fun s =>
    match p with
    | none => s.consoleDo 0x03 [0, 19] 0
    | some p => s.consoleDo 0x03 [BitVec.ofNat 8 p.val, 1] 0)

/-- Console tally (R506): the last n records, 16 by default. -/
def execConsoleTally (n : Option Nat) (s : State) : Out :=
  .next (s.live fun s =>
    if !s.consoleOn then s
    else
      let c := (s.rd Reg.TALLY_COUNT).toNat
      let k := min (n.getD 16) (min c 1024)
      s.emit (.console (s.tallyPayload ((c - k) % 1024) k) 0))

/-- Console rr (R506): REG_READ, of one register by default. -/
def execConsoleRr (chip off : Nat) (count : Option Nat) (ready : BitVec 4) (s : State) : Out :=
  .next (s.live fun s =>
    let k := count.getD 1
    if k = 0 ∨ 64 < k ∨ 2 ^ 32 ≤ off then s.consoleBad
    else s.consoleReg 0x04 chip (leBytes 4 k ++ leBytes 4 off) ready)

/-- Console rw (R506): REG_WRITE of one value. -/
def execConsoleRw (chip off : Nat) (v : Word) (ready : BitVec 4) (s : State) : Out :=
  .next (s.live fun s =>
    if 2 ^ 32 ≤ off then s.consoleBad
    else s.consoleReg 0x05 chip (leBytes 4 1 ++ leBytes 4 off ++ leBytes 4 v.toNat) ready)

/-- Console start (R506). -/
def execConsoleStart (base : Option (BitVec 8)) (answers : Bool) (s : State) : Out :=
  .next (s.live fun s => s.consoleDo 0x10 [base.getD 0xFF] 0 answers)

/-- Console stop (R506). -/
def execConsoleStop (s : State) : Out :=
  .next (s.live fun s => s.consoleDo 0x11 [] 0)

/-- Console quiesce (R506). -/
def execConsoleQuiesce (s : State) : Out :=
  .next (s.live fun s => s.consoleDo 0x12 [] 0)

/-- Console resume (R506). -/
def execConsoleResume (s : State) : Out :=
  .next (s.live fun s => s.consoleDo 0x13 [] 0)

/-- Console net (R506): NET_SET. -/
def execConsoleNet (i addr mask gw : Word) (s : State) : Out :=
  .next (s.live fun s =>
    s.consoleDo 0x07 (leBytes 4 (min i.toNat 255) ++ leBytes 4 addr.toNat ++ leBytes 4 mask.toNat ++ leBytes 4 gw.toNat) 0)

/-- Console dest (R506): FIND_DEST. -/
def execConsoleDest (addr port : Word) (s : State) : Out :=
  .next (s.live fun s =>
    if 65535 < port.toNat then s.consoleBad else s.consoleDo 0x18 (leBytes 4 addr.toNat ++ leBytes 2 port.toNat) 0)

/-- Console ptp (R506): PTP_ROLE. -/
def execConsolePtp (role : Nat) (s : State) : Out :=
  .next (s.live fun s => s.consoleDo 0x31 [BitVec.ofNat 8 (min role 255)] 0)

/-- Console ident (R506). -/
def execConsoleIdent (on : Bool) (s : State) : Out :=
  .next (s.live fun s => s.consoleDo 0x40 [BitVec.ofNat 8 (b2n on)] 0)

/-- Console reset (R506): TTCP RESET 0. -/
def execConsoleReset (s : State) : Out :=
  .next (s.live fun s => s.consoleDo 0x42 [0] 0)

/-- Console poweroff (R607): TTCP RESET 1. -/
def execConsolePoweroff (s : State) : Out :=
  .next (s.live fun s => s.consoleDo 0x42 [1] 0)

/-- Console retain (R604). -/
def execConsoleRetain (s : State) : Out :=
  .next (s.live fun s => s.consoleDo 0x41 [] 0)

/-- A recovery BEGIN block (R508). -/
def execRecoveryBegin (seq : BitVec 16) (payload : List Byte) (crc : BitVec 16) (s : State) : Out :=
  .next (s.live fun s => s.recBlock 1 seq.toNat payload crc.toNat true)

/-- A recovery DATA block (R508); `ok`: the flash took the write. -/
def execRecoveryData (seq : BitVec 16) (payload : List Byte) (crc : BitVec 16) (ok : Bool) (s : State) : Out :=
  .next (s.live fun s => s.recBlock 2 seq.toNat payload crc.toNat ok)

/-- A recovery COMMIT block (R508). -/
def execRecoveryCommit (seq : BitVec 16) (payload : List Byte) (crc : BitVec 16) (ok : Bool) (s : State) : Out :=
  .next (s.live fun s => s.recBlock 3 seq.toNat payload crc.toNat ok)

/-- A recovery REBOOT block (R508). -/
def execRecoveryReboot (seq : BitVec 16) (payload : List Byte) (crc : BitVec 16) (s : State) : Out :=
  .next (s.live fun s => s.recBlock 4 seq.toNat payload crc.toNat true)

/-- RECOVERY_ANNOUNCE (R508): the line "WB4-REC", until the first block. -/
def execRecoveryAnnounce (s : State) : Out :=
  .next (s.live fun s =>
    if s.recoveryOn && s.svc.recSeq.isNone then s.emit (.romText [0x57, 0x42, 0x34, 0x2D, 0x52, 0x45, 0x43]) else s)

/-- RECOVERY_BLOCK_TIMEOUT (R508). -/
def execRecoveryBlockTimeout (s : State) : Out :=
  .next (s.live fun s => if s.recoveryOn then s.modSvc fun v => { v with recPart := [] } else s)

end Sys2Proof.Machine
end

