-- ==== Sys2Proof/Machine/Scalar.lean ====
section
/-! DEFINITION. Meanings of the scalar instructions of chapter 05 (R142 to R154). -/

namespace Sys2Proof.Machine
open Sys2Proof

/-- Core `c` executes an instruction that writes s[rd] and goes on (R142). -/
def State.alu (s : State) (c : CoreId) (rd : BitVec 5) (f : Core → Dword) : State :=
  s.issue c fun s => (s.modCore c fun x => x.setS rd (f x)).retire c

/-- A comparison as a register value. -/
def flag (b : Bool) : Dword := if b then 1 else 0

/-- A signed 128-bit product's high half. -/
def mulHigh (a b : Int) : Dword := BitVec.ofInt 64 (a * b / 2 ^ 64)

/-- A division (R144, Table 5-5): 0x0E or 0x0F at the edges when trapped, else the result. -/
def State.divide (s : State) (c : CoreId) (rd rs1 rs2 : BitVec 5) (signed : Bool) (f : Dword → Dword → Dword) : State :=
  s.issue c fun s =>
    let x := s.core c
    let a := x.sreg rs1
    let b := x.sreg rs2
    if b = 0 ∧ x.dztrap then s.precise c 0x0E a
    else if signed ∧ a = BitVec.intMin 64 ∧ b = BitVec.allOnes 64 ∧ x.ovtrap then s.precise c 0x0F a
    else (s.modCore c fun x => x.setS rd (f a b)).retire c

/-- DIV's result; the edges of Table 5-5. -/
def divS (a b : Dword) : Dword := if b = 0 then BitVec.allOnes 64 else BitVec.sdiv a b
/-- DIVU's result. -/
def divU (a b : Dword) : Dword := if b = 0 then BitVec.allOnes 64 else a / b
/-- REM's result: the sign of the dividend. -/
def remS (a b : Dword) : Dword := if b = 0 then a else BitVec.srem a b
/-- REMU's result. -/
def remU (a b : Dword) : Dword := if b = 0 then a else a % b

/-- The U-format immediate: sext(imm20 << 12) (R137, R146). -/
def upper (imm : BitVec 20) : Dword := sx64 (imm ++ (0 : BitVec 12))

/-- The address s[rs1] + sext(imm12) (R147). -/
def Core.at' (x : Core) (rs1 : BitVec 5) (imm : BitVec 12) : Dword := x.sreg rs1 + sx64 imm

/-- The address s[rs1] + 64 sext(imm12) of VLD and VST (R148). -/
def Core.vecAt (x : Core) (rs1 : BitVec 5) (imm : BitVec 12) : Dword := x.sreg rs1 + sx64 imm * 64

/-- A scalar load of k bytes (R147). -/
def State.scalarLoad (s : State) (c : CoreId) (rd rs1 : BitVec 5) (imm : BitVec 12) (k : Nat) (signed : Bool) : State :=
  s.issue c fun s => s.coreLoad c ((s.core c).at' rs1 imm) k false (.scalar rd k signed)

/-- A scalar store of k bytes (R147). -/
def State.scalarStore (s : State) (c : CoreId) (rs1 rs2 : BitVec 5) (imm : BitVec 12) (k : Nat) : State :=
  s.issue c fun s =>
    let x := s.core c
    s.coreStore c (x.at' rs1 imm) k false [(0, leBytes k (x.sreg rs2).toNat)]

/-- A branch: to pc + 4 sext(imm12) when the condition holds (R151). -/
def State.branch (s : State) (c : CoreId) (rs1 rs2 : BitVec 5) (imm : BitVec 12) (f : Dword → Dword → Bool) : State :=
  s.issue c fun s =>
    let x := s.core c
    if f (x.sreg rs1) (x.sreg rs2) then s.retireAt c (x.pc + sx64 imm * 4) x.step else s.retire c

/-- An assigned word that the core may not execute raises 0x01 with the word as tval (R102, R139, R153). -/
def State.illegal (s : State) (c : CoreId) (w : Word) : State := s.precise c 0x01 (zx64 w)

/-- HALT on tile n: DRAINING with an exit code; a waiting STOP is discarded (R116, Table 4-7). -/
def State.haltTask (s : State) (n : Fin 144) (imm : BitVec 12) : State :=
  s.modTile n fun t => { t with exit := some imm, core := { t.core with task := .draining, stopReq := false } }

/-- An unassigned word raises 0x01 (R139).  A word that is assigned is another row's, and nothing happens. -/
def execIllegalInstruction (c : CoreId) (w : Word) (s : State) : Out :=
  .next (s.live fun s => if assigned w then s else s.issue c fun s => s.illegal c w)

/-- ADD (R143, Table 5-4). -/
def execAdd (c : CoreId) (rd rs1 rs2 : BitVec 5) (s : State) : Out :=
  .next (s.live fun s => s.alu c rd fun x => x.sreg rs1 + x.sreg rs2)

/-- SUB (R143, Table 5-4). -/
def execSub (c : CoreId) (rd rs1 rs2 : BitVec 5) (s : State) : Out :=
  .next (s.live fun s => s.alu c rd fun x => x.sreg rs1 - x.sreg rs2)

/-- AND (R143, Table 5-4). -/
def execAnd (c : CoreId) (rd rs1 rs2 : BitVec 5) (s : State) : Out :=
  .next (s.live fun s => s.alu c rd fun x => x.sreg rs1 &&& x.sreg rs2)

/-- OR (R143, Table 5-4). -/
def execOr (c : CoreId) (rd rs1 rs2 : BitVec 5) (s : State) : Out :=
  .next (s.live fun s => s.alu c rd fun x => x.sreg rs1 ||| x.sreg rs2)

/-- XOR (R143, Table 5-4). -/
def execXor (c : CoreId) (rd rs1 rs2 : BitVec 5) (s : State) : Out :=
  .next (s.live fun s => s.alu c rd fun x => x.sreg rs1 ^^^ x.sreg rs2)

/-- SLL (R143, Table 5-4). -/
def execSll (c : CoreId) (rd rs1 rs2 : BitVec 5) (s : State) : Out :=
  .next (s.live fun s => s.alu c rd fun x => x.sreg rs1 <<< fld (x.sreg rs2) 5 0)

/-- SRL (R143, Table 5-4). -/
def execSrl (c : CoreId) (rd rs1 rs2 : BitVec 5) (s : State) : Out :=
  .next (s.live fun s => s.alu c rd fun x => x.sreg rs1 >>> fld (x.sreg rs2) 5 0)

/-- SRA (R143, Table 5-4). -/
def execSra (c : CoreId) (rd rs1 rs2 : BitVec 5) (s : State) : Out :=
  .next (s.live fun s => s.alu c rd fun x => (x.sreg rs1).sshiftRight (fld (x.sreg rs2) 5 0))

/-- SLT (R143, Table 5-4). -/
def execSlt (c : CoreId) (rd rs1 rs2 : BitVec 5) (s : State) : Out :=
  .next (s.live fun s => s.alu c rd fun x => flag ((x.sreg rs1).slt (x.sreg rs2)))

/-- SLTU (R143, Table 5-4). -/
def execSltu (c : CoreId) (rd rs1 rs2 : BitVec 5) (s : State) : Out :=
  .next (s.live fun s => s.alu c rd fun x => flag ((x.sreg rs1).ult (x.sreg rs2)))

/-- SEQ (R143, Table 5-4). -/
def execSeq (c : CoreId) (rd rs1 rs2 : BitVec 5) (s : State) : Out :=
  .next (s.live fun s => s.alu c rd fun x => flag (x.sreg rs1 == x.sreg rs2))

/-- MIN (R143, Table 5-4). -/
def execMin (c : CoreId) (rd rs1 rs2 : BitVec 5) (s : State) : Out :=
  .next (s.live fun s => s.alu c rd fun x => if (x.sreg rs2).slt (x.sreg rs1) then x.sreg rs2 else x.sreg rs1)

/-- MAX (R143, Table 5-4). -/
def execMax (c : CoreId) (rd rs1 rs2 : BitVec 5) (s : State) : Out :=
  .next (s.live fun s => s.alu c rd fun x => if (x.sreg rs1).slt (x.sreg rs2) then x.sreg rs2 else x.sreg rs1)

/-- MINU (R143, Table 5-4). -/
def execMinu (c : CoreId) (rd rs1 rs2 : BitVec 5) (s : State) : Out :=
  .next (s.live fun s => s.alu c rd fun x => if (x.sreg rs2).ult (x.sreg rs1) then x.sreg rs2 else x.sreg rs1)

/-- MAXU (R143, Table 5-4). -/
def execMaxu (c : CoreId) (rd rs1 rs2 : BitVec 5) (s : State) : Out :=
  .next (s.live fun s => s.alu c rd fun x => if (x.sreg rs1).ult (x.sreg rs2) then x.sreg rs2 else x.sreg rs1)

/-- MUL (R143, Table 5-4). -/
def execMul (c : CoreId) (rd rs1 rs2 : BitVec 5) (s : State) : Out :=
  .next (s.live fun s => s.alu c rd fun x => x.sreg rs1 * x.sreg rs2)

/-- MULH (R143, Table 5-4). -/
def execMulh (c : CoreId) (rd rs1 rs2 : BitVec 5) (s : State) : Out :=
  .next (s.live fun s => s.alu c rd fun x => mulHigh (x.sreg rs1).toInt (x.sreg rs2).toInt)

/-- MULHU (R143, Table 5-4). -/
def execMulhu (c : CoreId) (rd rs1 rs2 : BitVec 5) (s : State) : Out :=
  .next (s.live fun s => s.alu c rd fun x => mulHigh (x.sreg rs1).toNat (x.sreg rs2).toNat)

/-- DIV (R143, R144). -/
def execDiv (c : CoreId) (rd rs1 rs2 : BitVec 5) (s : State) : Out :=
  .next (s.live fun s => s.divide c rd rs1 rs2 true divS)

/-- DIVU (R143, R144). -/
def execDivu (c : CoreId) (rd rs1 rs2 : BitVec 5) (s : State) : Out :=
  .next (s.live fun s => s.divide c rd rs1 rs2 false divU)

/-- REM (R143, R144). -/
def execRem (c : CoreId) (rd rs1 rs2 : BitVec 5) (s : State) : Out :=
  .next (s.live fun s => s.divide c rd rs1 rs2 true remS)

/-- REMU (R143, R144). -/
def execRemu (c : CoreId) (rd rs1 rs2 : BitVec 5) (s : State) : Out :=
  .next (s.live fun s => s.divide c rd rs1 rs2 false remU)

/-- ADDI (R145, Table 5-6). -/
def execAddi (c : CoreId) (rd rs1 : BitVec 5) (imm : BitVec 12) (s : State) : Out :=
  .next (s.live fun s => s.alu c rd fun x => x.sreg rs1 + sx64 imm)

/-- ANDI (R145, Table 5-6). -/
def execAndi (c : CoreId) (rd rs1 : BitVec 5) (imm : BitVec 12) (s : State) : Out :=
  .next (s.live fun s => s.alu c rd fun x => x.sreg rs1 &&& sx64 imm)

/-- ORI (R145, Table 5-6). -/
def execOri (c : CoreId) (rd rs1 : BitVec 5) (imm : BitVec 12) (s : State) : Out :=
  .next (s.live fun s => s.alu c rd fun x => x.sreg rs1 ||| sx64 imm)

/-- XORI (R145, Table 5-6). -/
def execXori (c : CoreId) (rd rs1 : BitVec 5) (imm : BitVec 12) (s : State) : Out :=
  .next (s.live fun s => s.alu c rd fun x => x.sreg rs1 ^^^ sx64 imm)

/-- SLLI (R145, Table 5-6). -/
def execSlli (c : CoreId) (rd rs1 : BitVec 5) (sh : BitVec 6) (s : State) : Out :=
  .next (s.live fun s => s.alu c rd fun x => x.sreg rs1 <<< sh.toNat)

/-- SRLI (R145, Table 5-6). -/
def execSrli (c : CoreId) (rd rs1 : BitVec 5) (sh : BitVec 6) (s : State) : Out :=
  .next (s.live fun s => s.alu c rd fun x => x.sreg rs1 >>> sh.toNat)

/-- SRAI (R145, Table 5-6). -/
def execSrai (c : CoreId) (rd rs1 : BitVec 5) (sh : BitVec 6) (s : State) : Out :=
  .next (s.live fun s => s.alu c rd fun x => (x.sreg rs1).sshiftRight sh.toNat)

/-- SLTI (R145): the immediate is sign-extended first. -/
def execSlti (c : CoreId) (rd rs1 : BitVec 5) (imm : BitVec 12) (s : State) : Out :=
  .next (s.live fun s => s.alu c rd fun x => flag ((x.sreg rs1).slt (sx64 imm)))

/-- SLTIU (R145): the immediate is sign-extended first. -/
def execSltiu (c : CoreId) (rd rs1 : BitVec 5) (imm : BitVec 12) (s : State) : Out :=
  .next (s.live fun s => s.alu c rd fun x => flag ((x.sreg rs1).ult (sx64 imm)))

/-- LDHI (R146). -/
def execLdhi (c : CoreId) (rd : BitVec 5) (imm : BitVec 20) (s : State) : Out :=
  .next (s.live fun s => s.alu c rd fun _ => upper imm)

/-- ADDPCH (R146). -/
def execAddpch (c : CoreId) (rd : BitVec 5) (imm : BitVec 20) (s : State) : Out :=
  .next (s.live fun s => s.alu c rd fun x => x.pc + upper imm)

/-- LB (R147, Table 5-7). -/
def execLb (c : CoreId) (rd rs1 : BitVec 5) (imm : BitVec 12) (s : State) : Out :=
  .next (s.live fun s => s.scalarLoad c rd rs1 imm 1 true)

/-- LH (R147, Table 5-7). -/
def execLh (c : CoreId) (rd rs1 : BitVec 5) (imm : BitVec 12) (s : State) : Out :=
  .next (s.live fun s => s.scalarLoad c rd rs1 imm 2 true)

/-- LW (R147, Table 5-7). -/
def execLw (c : CoreId) (rd rs1 : BitVec 5) (imm : BitVec 12) (s : State) : Out :=
  .next (s.live fun s => s.scalarLoad c rd rs1 imm 4 true)

/-- LD (R147, Table 5-7). -/
def execLd (c : CoreId) (rd rs1 : BitVec 5) (imm : BitVec 12) (s : State) : Out :=
  .next (s.live fun s => s.scalarLoad c rd rs1 imm 8 false)

/-- LBU (R147, Table 5-7). -/
def execLbu (c : CoreId) (rd rs1 : BitVec 5) (imm : BitVec 12) (s : State) : Out :=
  .next (s.live fun s => s.scalarLoad c rd rs1 imm 1 false)

/-- LHU (R147, Table 5-7). -/
def execLhu (c : CoreId) (rd rs1 : BitVec 5) (imm : BitVec 12) (s : State) : Out :=
  .next (s.live fun s => s.scalarLoad c rd rs1 imm 2 false)

/-- LWU (R147, Table 5-7). -/
def execLwu (c : CoreId) (rd rs1 : BitVec 5) (imm : BitVec 12) (s : State) : Out :=
  .next (s.live fun s => s.scalarLoad c rd rs1 imm 4 false)

/-- SB (R147, Table 5-7). -/
def execSb (c : CoreId) (rs1 rs2 : BitVec 5) (imm : BitVec 12) (s : State) : Out :=
  .next (s.live fun s => s.scalarStore c rs1 rs2 imm 1)

/-- SH (R147, Table 5-7). -/
def execSh (c : CoreId) (rs1 rs2 : BitVec 5) (imm : BitVec 12) (s : State) : Out :=
  .next (s.live fun s => s.scalarStore c rs1 rs2 imm 2)

/-- SW (R147, Table 5-7). -/
def execSw (c : CoreId) (rs1 rs2 : BitVec 5) (imm : BitVec 12) (s : State) : Out :=
  .next (s.live fun s => s.scalarStore c rs1 rs2 imm 4)

/-- SD (R147, Table 5-7). -/
def execSd (c : CoreId) (rs1 rs2 : BitVec 5) (imm : BitVec 12) (s : State) : Out :=
  .next (s.live fun s => s.scalarStore c rs1 rs2 imm 8)

/-- VLD (R148, R150): the mask is read at issue. -/
def execVld (c : CoreId) (vd rs1 : BitVec 5) (msk : BitVec 3) (imm : BitVec 12) (s : State) : Out :=
  .next (s.live fun s => s.issue c fun s =>
    let x := s.core c
    s.coreLoad c (x.vecAt rs1 imm) 256 true (.vector vd (x.mreg msk)))

/-- VST (R149, R150). -/
def execVst (c : CoreId) (rs1 vs2 : BitVec 5) (msk : BitVec 3) (imm : BitVec 12) (s : State) : Out :=
  .next (s.live fun s => s.issue c fun s =>
    let x := s.core c
    s.coreStore c (x.vecAt rs1 imm) 256 true (maskRuns (x.mreg msk) (x.vreg vs2) 64 []))

/-- BEQ (R151, Table 5-8). -/
def execBeq (c : CoreId) (rs1 rs2 : BitVec 5) (imm : BitVec 12) (s : State) : Out :=
  .next (s.live fun s => s.branch c rs1 rs2 imm fun a b => a == b)

/-- BNE (R151, Table 5-8). -/
def execBne (c : CoreId) (rs1 rs2 : BitVec 5) (imm : BitVec 12) (s : State) : Out :=
  .next (s.live fun s => s.branch c rs1 rs2 imm fun a b => a != b)

/-- BLT (R151, Table 5-8). -/
def execBlt (c : CoreId) (rs1 rs2 : BitVec 5) (imm : BitVec 12) (s : State) : Out :=
  .next (s.live fun s => s.branch c rs1 rs2 imm fun a b => a.slt b)

/-- BGE (R151, Table 5-8). -/
def execBge (c : CoreId) (rs1 rs2 : BitVec 5) (imm : BitVec 12) (s : State) : Out :=
  .next (s.live fun s => s.branch c rs1 rs2 imm fun a b => !a.slt b)

/-- BLTU (R151, Table 5-8). -/
def execBltu (c : CoreId) (rs1 rs2 : BitVec 5) (imm : BitVec 12) (s : State) : Out :=
  .next (s.live fun s => s.branch c rs1 rs2 imm fun a b => a.ult b)

/-- BGEU (R151, Table 5-8). -/
def execBgeu (c : CoreId) (rs1 rs2 : BitVec 5) (imm : BitVec 12) (s : State) : Out :=
  .next (s.live fun s => s.branch c rs1 rs2 imm fun a b => !a.ult b)

/-- JL (R151): s[rd] gets pc + 4. -/
def execJl (c : CoreId) (rd : BitVec 5) (imm : BitVec 20) (s : State) : Out :=
  .next (s.live fun s => s.issue c fun s =>
    let x := s.core c
    (s.modCore c fun x => x.setS rd (x.pc + 4)).retireAt c (x.pc + sx64 imm * 4) x.step)

/-- JLR (R151, R173): the target uses the old s[rs1]; a target that is not 4-byte aligned raises 0x02. -/
def execJlr (c : CoreId) (rd rs1 : BitVec 5) (imm : BitVec 12) (s : State) : Out :=
  .next (s.live fun s => s.issue c fun s =>
    let x := s.core c
    let t := x.at' rs1 imm
    if t.toNat % 4 ≠ 0 then s.precise c 0x02 t
    else (s.modCore c fun x => x.setS rd (x.pc + 4)).retireAt c t x.step)

/-- MFSR (R152). -/
def execMfsr (c : CoreId) (rd : BitVec 5) (sr : BitVec 3) (s : State) : Out :=
  .next (s.live fun s => s.issue c fun s =>
    let v := s.special c sr.toNat
    (s.modCore c fun x => x.setS rd v).retire c)

/-- A write of a special register by MTSR: status takes PMODE, EXC, DZTRAP, OVTRAP and STEP; cause, epc and tval are
written on a Ranger core (R153); `none` where MTSR raises 0x01. -/
def Core.writeSpecial (x : Core) (ranger : Bool) (sr : BitVec 3) (v : Dword) : Option Core :=
  match sr.toNat with
  | 1 => some { x with status := (x.status &&& ~~~0x3E) ||| (v &&& 0x3E) }
  | 2 => if ranger then some { x with cause := v &&& 0xFFFF0FFF } else none
  | 3 => if ranger then some { x with epc := v } else none
  | 4 => if ranger then some { x with tval := v } else none
  | _ => none

/-- MTSR (R152 to R154); a STEP that it sets acts after the next instruction (R172). -/
def execMtsr (c : CoreId) (sr : BitVec 3) (rs1 : BitVec 5) (s : State) : Out :=
  .next (s.live fun s => s.issue c fun s =>
    let x := s.core c
    match x.writeSpecial c.isRanger sr (x.sreg rs1) with
    | some y => (s.setCore c y).retireAt c (x.pc + 4) x.step
    | none => s.illegal c (wordI 0x1C 1 sr.toNat rs1 0))

/-- ERET on a Ranger core (R123); on a tile sequencer 0x01 (R153).  With STEP 1 the single step follows, at the
instruction returned to. -/
def execEret (c : CoreId) (s : State) : Out :=
  .next (s.live fun s => s.issue c fun s =>
    match c with
    | .ranger k =>
      let step := (s.core c).step
      let s := s.excReturn k
      s.retireAt c (s.core c).pc step
    | .tile _ => s.illegal c (wordI 0x1C 2 0 0 0))

/-- HALT (R116): a tile enters DRAINING with its exit code, and a waiting STOP is discarded (Table 4-7); on a Ranger core
0x01 (R153). -/
def execHalt (c : CoreId) (imm : BitVec 12) (s : State) : Out :=
  .next (s.live fun s => s.issue c fun s =>
    match c with
    | .ranger _ => s.illegal c (wordI 0x1C 3 imm.toNat 0 0)
    | .tile n => s.haltTask n imm)

/-- TRAP (R125, R152): 0x20 with tval the immediate. -/
def execTrap (c : CoreId) (imm : BitVec 12) (s : State) : Out :=
  .next (s.live fun s => s.issue c fun s => s.precise c 0x20 (zx64 imm))

/-- BRK (R125, R152): 0x21 with tval the immediate. -/
def execBrk (c : CoreId) (imm : BitVec 12) (s : State) : Out :=
  .next (s.live fun s => s.issue c fun s => s.precise c 0x21 (zx64 imm))

/-- IFLUSH (R152): waits for the posted stores of the core, then invalidates its instruction cache. -/
def execIflush (c : CoreId) (s : State) : Out :=
  .next (s.live fun s =>
    s.issue c fun s => if s.posted c = 0 then (s.modCore c fun x => { x with icache := [] }).retire c else s)

/-- The data of a load returns (R111). -/
def execLoadResponse (c : CoreId) (s : State) : Out := .next (s.live fun s => s.loadReturns c)

end Sys2Proof.Machine
end

