-- ==== Sys2Proof/Machine/Descr.lean ====
section
/-! DEFINITION. The descriptors of chapter 06: how the sequencer reads and judges them at issue (R179 to R181, R215,
R218, R753 to R755, Tables 6-3 to 6-9). -/

namespace Sys2Proof.Machine
open Sys2Proof

/-- Bytes `o` to `o + n - 1` are 0 (R180). -/
def zeros (d : List Byte) (o n : Nat) : Bool := leAt d o n == 0

/-- Does an own-scratchpad range end inside the tile's 1 MiB (R215). -/
def fits (e : Nat) : Bool := decide (e ≤ 2 ^ 20)

/-- Does a 48-bit global address name a range of tile n's own scratchpad. -/
def State.inOwn (s : State) (n a len : Nat) : Bool :=
  match s.localAddr a with
  | some l => decide (a < 2 ^ 48) && (regionAt l len == .sp n)
  | none => false

/-- Does it name a range of the chip's HBM or of tile n's own scratchpad (R753). -/
def State.inSource (s : State) (n a len : Nat) : Bool :=
  s.inOwn n a len || (match s.localAddr a with
    | some l => decide (a < 2 ^ 48) && (regionAt l len == .hbm)
    | none => false)

/-- Group sizes and SETFULL codes take 0 to 2. -/
def upTo2 (x : Nat) : Bool := decide (x ≤ 2)

/-- MLOAD (Table 6-3, R184, R753). -/
def State.mloadOk (s : State) (n : Nat) (d : List Byte) : Bool :=
  let w := leAt d 4 1 % 16
  let mode := leAt d 4 1 / 16
  let rg0 := leAt d 2 1
  let nrg := leAt d 3 1
  let nch := leAt d 6 2
  let flags := leAt d 5 1
  let scales := flags.testBit 2
  let sc := leAt d 16 8
  zeros d 24 8 && zeros d 48 14 && decide (leAt d 1 1 < 16 ∧ flags < 8 ∧ mode ≤ 3) &&
  (mode == 1 || zeros d 32 16) && (scales || sc == 0) &&
  (if mode = 3 then
    decide (leAt d 1 1 ≤ 9 ∧ 4 ≤ w ∧ w ≤ 12) && zeros d 2 2 && zeros d 5 3 &&
      s.inSource n (leAt d 8 8) (if leAt d 1 1 < 8 then 32 else 512)
  else
    decide (2 ≤ w ∧ w ≤ 8) && (mode != 1 || w == 8) && upTo2 (flags % 4) &&
      decide (rg0 ≤ 31 ∧ 1 ≤ nrg ∧ rg0 + nrg ≤ 32 ∧ 1 ≤ nch ∧ nch ≤ 128 / w) &&
      s.inSource n (leAt d 8 8) (srcBytes mode nrg w nch)) &&
  (!scales || (sc % 2 == 0 && s.inSource n sc (2 * nrg * nch * (128 / groupSize (flags % 4)))))

/-- MRUN (Table 6-4, R186, R215). -/
def mrunOk (d : List Byte) : Bool :=
  let b5 := leAt d 5 1
  let afmt := b5 / 32
  let rg0 := leAt d 8 1
  let nrg := leAt d 9 1
  let v := leAt d 10 2 - 1
  let i := if (leAt d 1 1).testBit 1 then 0 else (mrunMacros d).length - 1
  let inB := leAt d 16 4
  let scB := leAt d 28 4
  zeros d 13 3 && zeros d 26 2 && zeros d 38 2 && zeros d 48 14 && decide (leAt d 1 1 < 16) && !zeros d 2 2 &&
  decide (2 ≤ leAt d 4 1 ∧ leAt d 4 1 ≤ 8) &&
  (match afmt with
   | 0 => decide (1 ≤ b5 % 32 ∧ b5 % 32 ≤ 16) && zeros d 6 1
   | 1 => decide (leAt d 6 1 ≤ 7)
   | 2 => decide (leAt d 6 1 ≤ 1)
   | _ => false) &&
  upTo2 (leAt d 7 1) && decide (rg0 ≤ 31 ∧ 1 ≤ nrg ∧ rg0 + nrg ≤ 32 ∧ 1 ≤ leAt d 10 2 ∧ leAt d 12 1 ≤ 63) &&
  decide (inB < 2 ^ 20 ∧ inB % 16 = 0 ∧ scB < 2 ^ 20 ∧ scB % 2 = 0) &&
  fits (inB + 16 * (v * leAt d 20 2 + (nrg - 1) * leAt d 22 2 + i * leAt d 24 2) + inputBytes d) &&
  ((leAt d 1 1).testBit 3 ||
    fits (scB + 2 * (v * leAt d 32 2 + (nrg - 1) * leAt d 34 2 + i * leAt d 36 2 + 128 / groupSize (leAt d 7 1))))

/-- ACC.OPEN (Table 6-5, R189). -/
def accOpenOk (d : List Byte) : Bool :=
  let k := leAt d 2 1
  let nelem := leAt d 4 2
  zeros d 3 1 && zeros d 8 54 && decide (leAt d 1 1 ≤ 63 ∧ k < 16 ∧ k % 8 ≤ 4 ∧ 1 ≤ nelem ∧ nelem ≤ 16384 ∧
    leAt d 6 2 ≤ 16383 ∧ leAt d 6 2 + nelem * (k % 8 + 1) ≤ 16384)

/-- ACC.CLOSE (Table 6-6, R297, R299, R300), for a group whose latest ACC.OPEN has `nelem` elements. -/
def State.accCloseOk (s : State) (n : Nat) (d : List Byte) (nelem : Nat) : Bool :=
  let k := leAt d 2 1
  let dest := k / 16 % 4
  let sf := leAt d 3 1
  let len := leAt d 4 2
  let bo := if k.testBit 3 then 4 else 2
  let bf := if k.testBit 2 then 4 else 2
  let rows := max (nelem / len) 1
  let out := leAt d 8 8
  let stride := leAt d 16 4
  zeros d 6 2 && zeros d 32 30 && decide (leAt d 1 1 ≤ 63 ∧ k < 64) && upTo2 (k % 4) && upTo2 dest && upTo2 sf &&
  decide (1 ≤ len ∧ nelem % len = 0 ∧ leAt d 20 4 < 2 ^ 20 ∧ leAt d 28 4 < 2 ^ 20) &&
  (k % 4 == 0 || (leAt d 20 4 % bf == 0 && fits (leAt d 20 4 + (rows - 1) * leAt d 24 4 + len * bf))) &&
  (dest == 2 ||
    (decide (out < 2 ^ 48) && out % bo == 0 &&
     (dest != 0 || s.inOwn n out ((rows - 1) * stride + len * bo)) &&
     (sf == 0 || (out % 64 == 0 && stride % 64 == 0 && len * bo % 64 == 0))))

/-- ACC.STAT (Table 6-7, R303). -/
def accStatOk (d : List Byte) : Bool :=
  let b := if (leAt d 1 1).testBit 0 then 4 else 2
  let g := leAt d 2 2
  let k := leAt d 4 4
  zeros d 16 46 && decide (leAt d 1 1 < 8 ∧ 1 ≤ g ∧ 1 ≤ k ∧ leAt d 8 4 < 2 ^ 20 ∧ leAt d 12 4 < 2 ^ 20) &&
  leAt d 8 4 % b == 0 && leAt d 12 4 % 16 == 0 && fits (leAt d 8 4 + g * k * b) && fits (leAt d 12 4 + 16 * k)

/-- QOUT (Table 6-8, R276, R277, R280, R754); `nelem` for one read at QDESC (R190). -/
def qoutOk (d : List Byte) (nelem : Option Nat) : Bool :=
  let sk := leAt d 1 1
  let w := leAt d 2 1 % 32
  let kind := leAt d 2 1 / 32
  let r := leAt d 4 1
  let len := leAt d 6 2
  let rows := leAt d 8 4
  let b := if sk = 0 then 2 else 4
  zeros d 48 14 && decide (leAt d 2 1 < 128 ∧ r < 64 ∧ leAt d 12 4 < 2 ^ 20 ∧ leAt d 20 4 < 2 ^ 20) && !r.testBit 3 &&
  (match nelem with | some k => sk == 2 && len * rows == k | none => decide (sk ≤ 1)) &&
  (match kind with
   | 0 => decide (2 ≤ w ∧ w ≤ 8)
   | 1 => decide (1 ≤ w ∧ w ≤ 8)
   | 2 => w == 0 && decide (leAt d 3 1 ≤ 7)
   | _ => w == 0 && decide (leAt d 3 1 ≤ 1)) &&
  upTo2 (r / 16) && upTo2 (leAt d 5 1) && decide (1 ≤ len ∧ 1 ≤ rows) && len % groupSize (r / 16) == 0 &&
  (r % 4 == 0 || len % (16 * 2 ^ (r % 4)) == 0) &&
  (sk == 2 || (leAt d 12 4 % b == 0 && leAt d 16 4 % b == 0 &&
    fits (leAt d 12 4 + (rows - 1) * leAt d 16 4 + len * b))) &&
  (!r.testBit 2 || (leAt d 20 4 % 2 == 0 && fits (leAt d 20 4 + 2 * len))) &&
  decide (leAt d 24 8 < 2 ^ 48 ∧ leAt d 32 8 < 2 ^ 48)

/-- A base address of a DMA descriptor: HBM or a scratchpad of whichever chip, a scratchpad for a tag semantics (R755). -/
def dmaBase (a : Nat) (tagged : Bool) : Bool :=
  match regionAt (a % 2 ^ 40) 1 with
  | .sp _ => true
  | .hbm => !tagged
  | _ => false

/-- DMA.POST (Table 6-9, R198, R199, R755). -/
def dmaOk (d : List Byte) : Bool :=
  let dims := leAt d 1 1 / 16
  let op := leAt d 1 1 % 16
  let c := dmaCompl d
  let idx := leAt d 56 4
  let count := fun (k : Nat) => leAt d (if k = 0 then 22 else 26 + 2 * k) 2
  let ks := List.range 3
  let by64 := fun (base stride : Nat) =>
    leAt d base 6 % 64 == 0 && dmaLen d % 64 == 0 && ks.all fun k => leAt d (stride + 4 * k) 4 % 64 == 0
  decide (op ≤ 2 ∧ dims ≤ 2 ∧ leAt d 2 1 < 32) && (op != 2 || dims == 1) &&
  (ks.all fun k => if k ≤ dims then count k != 0
    else count k == 0 && zeros d (32 + 4 * k) 4 && zeros d (44 + 4 * k) 4) &&
  decide (1 ≤ dmaLen d ∧ dmaLen d ≤ 2 ^ 24) &&
  (c != 2 || decide (leAt d 3 1 ≤ 15)) && (c != 3 || decide (leAt d 3 1 ≤ 55)) &&
  (op != 1 || (zeros d 4 6 && dmaLen d % 4 == 0 && !dmaSrcFe d)) &&
  (op != 2 || (idx % 4 == 0 && fits (idx + 4 * count 0))) &&
  (!dmaDstFe d || by64 10 44) && (!dmaSrcFe d || by64 4 32) &&
  (!dmaGate d || (leAt d 16 6 % 64 == 0 && dmaBase (leAt d 16 6) true)) &&
  (op == 1 || dmaBase (leAt d 4 6) (dmaSrcFe d)) && dmaBase (leAt d 10 6) (dmaDstFe d || c == 1)

/-- What reading a descriptor at issue gives. -/
inductive Descr where
  | got (d : List Byte) (s : State)
  /-- the access waits -/
  | stall
  | bad (cause : Nat) (s : State)

/-- Read the descriptor at `a` for tile n and judge it in the order of R179; `kind` is the code of R180 and `ok` the rest of step 5. -/
def State.descriptor (s : State) (n : Nat) (a : Nat) (kind : Nat) (ok : List Byte → Bool) : Descr :=
  if a % 64 ≠ 0 ∨ !s.inOwn n a 64 then .bad 0x10 s
  else
    let w := s.spWord n (a % 2 ^ 20)
    if s.seqStall n w then .stall
    else if (s.ownerUse n).ownerOf n w ≠ oSeq then .bad 0x07 ((s.ownerUse n).refuseWord n w rqSeq)
    else
      let (d, p, s) := ((s.ownerUse n).gbFlush n w).readWord n w rqSeq
      if p then .bad 0x08 s
      else if s.bit (Reg.TILE n Reg.TILE_CTRL) 0 && crc16 (d.take 62) != leAt d 62 2 then .bad 0x11 s
      else if leAt d 0 1 ≠ kind ∨ !ok d then .bad 0x10 s
      else .got d s

end Sys2Proof.Machine
end

