-- ==== Sys2Proof/Machine/Tensor.lean ====
section
/-! DEFINITION. Meanings of the tensor, accumulation, quantise, scratchpad, full/empty, DMA and synchronisation
instructions of chapter 06, with their waits and timeouts. -/

namespace Sys2Proof.Machine
open Sys2Proof

/-- An instruction of tile sequencers only; on a Ranger core it raises 0x01 with its word (R102). -/
def State.tileOnly (s : State) (c : CoreId) (word : Word) (f : Fin 144 → State → State) : State :=
  s.issue c fun s => match c with
    | .tile n => f n s
    | .ranger _ => s.illegal c word

/-- An operation enters an engine queue with the next issue number, the instruction completes, and the engines go on. -/
def State.dispatch (s : State) (n : Fin 144) (f : Nat → Tile → Tile) : State :=
  ((s.modTile n fun t => { f t.issue t with issue := t.issue + 1 }).retire (.tile n)).engines n

/-- A descriptor instruction of tile n (R179, R183): it waits while `full` holds, then does `f` with its descriptor. -/
def State.descOp (s : State) (c : CoreId) (op fn5 : Nat) (rs1 : BitVec 5) (kind : Nat) (full : Tile → Bool)
    (ok : State → Fin 144 → List Byte → Bool) (f : Fin 144 → Dword → List Byte → State → State) : State :=
  s.tileOnly c (wordT op fn5 0 0 rs1 0) fun n s =>
    let a := (s.core c).sreg rs1
    match s.descriptor n a.toNat kind (ok s n) with
    | .stall => s
    | .bad e s => s.precise c e a
    | .got d s => if full (s.tile n) then s else f n a d s

/-- Depths of Table 6-2. -/
def feederFull (t : Tile) : Bool := decide (2 ≤ t.feeder.length)
def buckerFull (t : Tile) : Bool := decide (4 ≤ t.bucker.length)
def chipperFull (t : Tile) : Bool := decide (2 ≤ t.chipper.length)

/-- A Feeder operation. -/
def State.toFeeder (s : State) (n : Fin 144) (a : Dword) (k : FKind) : State :=
  s.dispatch n fun i t => { t with feeder := t.feeder ++ [{ seq := i, addr := a, kind := k }] }

/-- A Bucker operation. -/
def State.toBucker (s : State) (n : Fin 144) (a : Dword) (k : BKind) : State :=
  s.dispatch n fun i t => { t with bucker := t.bucker ++ [{ seq := i, addr := a, kind := k }] }

/-- MLOAD (R183, R184, R753). -/
def execMload (c : CoreId) (rs1 : BitVec 5) (s : State) : Out :=
  .next (s.live fun s =>
    s.descOp c 0x28 0 rs1 0x01 feederFull (fun s n d => s.mloadOk n d) fun n a d s => s.toFeeder n a (.mload d))

/-- MRUN (R183, R186). -/
def execMrun (c : CoreId) (rs1 : BitVec 5) (s : State) : Out :=
  .next (s.live fun s =>
    s.descOp c 0x28 1 rs1 0x02 feederFull (fun _ _ d => mrunOk d) fun n a d s => s.toFeeder n a (.mrun d))

/-- MSCRUB (R188): macro in s[rs1][3:0], row-group in [8:4]. -/
def execMscrub (c : CoreId) (rs1 : BitVec 5) (s : State) : Out :=
  .next (s.live fun s => s.tileOnly c (wordT 0x28 2 0 0 rs1 0) fun n s =>
    let a := (s.core c).sreg rs1
    if feederFull (s.tile n) then s else s.toFeeder n a (.mscrub (fld a 3 0) (fld a 8 4)))

/-- ACC.OPEN (R183, R189). -/
def execAccOpen (c : CoreId) (rs1 : BitVec 5) (s : State) : Out :=
  .next (s.live fun s => s.descOp c 0x29 0 rs1 0x03 buckerFull (fun _ _ d => accOpenOk d) fun n a d s =>
    (s.modTile n fun t => { t with issuedNelem := t.issuedNelem.set 0 (leAt d 1 1) (leAt d 4 2) }).toBucker n a (.open d))

/-- ACC.CLOSE (R183, R190): with DEST 2 the QOUT descriptor at QDESC is read and judged too, with tval its address, and
both operations are dispatched. -/
def execAccClose (c : CoreId) (rs1 : BitVec 5) (s : State) : Out :=
  .next (s.live fun s => s.descOp c 0x29 1 rs1 0x04 buckerFull
    (fun s n d => s.accCloseOk n d ((s.tile n).issuedNelem.get 0 (leAt d 1 1))) fun n a d s =>
    if leAt d 2 1 / 16 % 4 ≠ 2 then s.toBucker n a (.close d [])
    else
      let q := s.spAddr n (leAt d 28 4)
      match s.descriptor n q 0x06 fun e => qoutOk e (some ((s.tile n).issuedNelem.get 0 (leAt d 1 1))) with
      | .stall => s
      | .bad e s => s.precise c e (BitVec.ofNat 64 q)
      | .got e s =>
        if chipperFull (s.tile n) then s
        else s.dispatch n fun i t =>
          { t with bucker := t.bucker ++ [{ seq := i, addr := a, kind := .close d e }],
                   chipper := t.chipper ++ [{ seq := i, addr := BitVec.ofNat 64 q, desc := e, fromClose := true }] })

/-- ACC.FLUSH (R191): group in s[rs1][5:0]. -/
def execAccFlush (c : CoreId) (rs1 : BitVec 5) (s : State) : Out :=
  .next (s.live fun s => s.tileOnly c (wordT 0x29 2 0 0 rs1 0) fun n s =>
    let a := (s.core c).sreg rs1
    if buckerFull (s.tile n) then s else s.toBucker n a (.flush (fld a 5 0)))

/-- ACC.STAT (R183, R192). -/
def execAccStat (c : CoreId) (rs1 : BitVec 5) (s : State) : Out :=
  .next (s.live fun s =>
    s.descOp c 0x29 3 rs1 0x05 buckerFull (fun _ _ d => accStatOk d) fun n a d s => s.toBucker n a (.stat d))

/-- ACC.PEEK (R191, R308): 0x01 without status.DBG; else, once every earlier operation on the group is done, the running
sum; a group that is not open gives 0x16 and an element outside it 0x10, deferred, and rd is not written. -/
def execAccPeek (c : CoreId) (rd rs1 rs2 : BitVec 5) (s : State) : Out :=
  .next (s.live fun s => s.tileOnly c (wordT 0x29 4 0 rs2 rs1 rd) fun n s =>
    let x := s.core c
    let a := x.sreg rs1
    let g := fld a 5 0
    let t := s.tile n
    let gr := t.groups.get {} g
    let e := (x.sreg rs2).toNat
    if !x.dbg then s.illegal c (wordT 0x29 4 0 rs2 rs1 rd)
    else if t.mrunBefore g t.issue || t.bopBefore g t.issue then s
    else if !gr.isOpen then (s.retire c).defer c ⟨0x16, 2, g, a⟩
    else if gr.nelem ≤ e then (s.retire c).defer c ⟨0x10, 2, g, a⟩
    else (s.modCore c fun x => x.setS rd (zx64 (t.words.get 0 (gr.word e)))).retire c)

/-- QOUT (R183, R754). -/
def execQout (c : CoreId) (rs1 : BitVec 5) (s : State) : Out :=
  .next (s.live fun s => s.descOp c 0x29 8 rs1 0x06 chipperFull (fun _ _ d => qoutOk d none) fun n a d s =>
    s.dispatch n fun i t => { t with chipper := t.chipper ++ [{ seq := i, addr := a, desc := d }] })

/-! ### SP.FILL and SP.COPY (R193, R194) -/

/-- Offset of a range in tile n's own scratchpad. -/
def State.ownRange (s : State) (n : Nat) (a : Dword) (len : Nat) : Option Nat :=
  match s.localAddr a.toNat with
  | some l => if a.toNat < 2 ^ 48 ∧ spTile l = some n ∧ l % 2 ^ 20 + len ≤ 2 ^ 20 then some (l % 2 ^ 20) else none
  | none => none

/-- The judgement of R193 on the addresses of an operation, the destination first: the causes and tvals in its order; or
the offsets. -/
def State.judgeRange (s : State) (n : Nat) (as' : List Dword) (len : Dword) : Except (Nat × Dword) (List Nat) :=
  match as'.find? fun a => a.toNat % 64 != 0 with
  | some a => .error (0x04, a)
  | none =>
    if len.toNat % 64 ≠ 0 then .error (0x04, (as'.headD 0) + len)
    else match as'.find? fun a => (s.ownRange n a len.toNat).isNone with
      | some a => .error (0x05, a)
      | none => .ok (as'.filterMap fun a => s.ownRange n a len.toNat)

/-- An SP.FILL or SP.COPY at issue: judged, then it runs in the background; one at a time (Table 6-2).  The address of a
refused word is that of its operand (log 24). -/
def State.spIssue (s : State) (c : CoreId) (n : Fin 144) (as' : List Dword) (len : Dword) (op : List Nat → SpOp) : State :=
  if (s.tile n).spop.isSome then s
  else match s.judgeRange n as' len with
    | .error (e, v) => s.precise c e v
    | .ok os =>
      let words := (List.zip as' os).flatMap fun p =>
        (List.range (len.toNat / 64)).map fun i => (p.1 + BitVec.ofNat 64 (64 * i), s.spWord n (p.2 + 64 * i))
      if words.any fun w => s.seqStall n w.2 then s
      else
        let s := s.ownerUse n
        match words.find? fun w => s.ownerOf n w.2 != oSeq with
        | some w => (s.refuseWord n w.2 rqSeq).precise c 0x07 w.1
        | none =>
          (if len = 0 then s else s.modTile n fun t => { t with spop := some (op os) }).retire c

/-- One word of a background operation: its gather-buffer entries are written back first (R338). -/
def State.spStep (s : State) (n : Nat) (o : SpOp) (i : Nat) : State :=
  let dst := s.spWord n (o.dst + 64 * i)
  match o.copy with
  | none => (s.gbFlush n dst).putWord n dst ((List.replicate 16 (leBytes 4 o.fill.toNat)).flatten)
  | some (src, mode) =>
    let sw := s.spWord n (src + 64 * i)
    let (bs, p, s) := ((s.gbFlush n sw).gbFlush n dst).readWord n sw rqSeq
    let s := if p then s.poisonWord n dst else s.putWord n dst bs
    match mode with
    | 0 => s
    | 1 => (s.setTag n dst true).slotChanged n dst
    | 2 => (s.setTag n dst false).slotChanged n dst
    | _ => (s.setTag n dst (s.tag n sw)).slotChanged n dst

/-- SP.FILL (R193): pattern s[rd][31:0], start s[rs1], length s[rs2]. -/
def execSpFill (c : CoreId) (rd rs1 rs2 : BitVec 5) (s : State) : Out :=
  .next (s.live fun s => s.tileOnly c (wordT 0x2A 0 0 rs2 rs1 rd) fun n s =>
    let x := s.core c
    let len := x.sreg rs2
    s.spIssue c n [x.sreg rs1] len fun os => ⟨os.headD 0, len.toNat, (x.sreg rd).setWidth 32, none⟩)

/-- SP.COPY (R193): destination s[rd], source s[rs1], length s[rs2], and a tag mode. -/
def execSpCopy (c : CoreId) (rd rs1 rs2 : BitVec 5) (mode : BitVec 2) (s : State) : Out :=
  .next (s.live fun s => s.tileOnly c (wordT 0x2A 1 mode.toNat rs2 rs1 rd) fun n s =>
    let x := s.core c
    let len := x.sreg rs2
    s.spIssue c n [x.sreg rd, x.sreg rs1] len fun os =>
      ⟨os.headD 0, len.toNat, 0, some (os.getD 1 0, mode.toNat)⟩)

/-- A background SP.FILL or SP.COPY has moved its words, in ascending address order (R193, R194). -/
def execSpOperationEnd (n : Fin 144) (s : State) : Out :=
  .next (s.live fun s => match (s.tile n).spop with
    | none => s
    | some o =>
      let s := forN (o.len / 64) (fun i s => s.spStep n o i) s
      s.modTile n fun t => { t with spop := none })

/-! ### Full/empty (R195 to R197) -/

/-- A wait bound in µs, sampled as a wait starts; a written one comes into force (R346, TILE_PEND). -/
def State.sampleLimit (s : State) (n off bit : Nat) : Nat × State :=
  let s := (s.apply (Reg.TILE n off)).clearPend (Reg.TILE n 0) (BitVec.ofNat 32 (2 ^ bit))
  ((s.inForce (Reg.TILE n off)).toNat, s)

/-- Is a full/empty result for a scalar register: the request is of form .S. -/
def Dst.isScalar : Dst → Bool
  | .scalar .. => true
  | _ => false

/-- The request of a full/empty wait: FE.WRITE with its data, or FE.READ for its destination. -/
def feOp (w : Option (List Byte)) (dst : Dst) : TOp := match w with | some d => .feWrite d | none => .feRead dst.isScalar

/-- A full/empty access of tile n's sequencer at its own slot g: it completes, is held in the waiter list, finds the list
full and retries, or is refused; `limit` is that of the wait, if it has begun. -/
def State.feOwn (s : State) (n : Fin 144) (g : Nat) (op : TOp) (dst : Dst) (limit : Option Nat) : State :=
  let c := CoreId.tile n
  let w := s.spWord n (g % 2 ^ 20)
  if s.initBusy n || s.handoverHolds n w (s.ownerOf n w) || s.spopHolds n w then s
  else match s.feAt n w op with
    | (.done bs p full, s) => s.completeWait c dst g bs p full
    | (.refused, s) => s.precise c 0x07 (BitVec.ofNat 64 g)
    | (.notReady, s) =>
      let (lim, s) := match limit with
        | some l => (l, s)
        | none => s.sampleLimit n Reg.TILE_FE_TIMEOUT 0
      match s.addWaiter n { agent := n, origin := .load, word := w, write := op.feData, tag := none } with
      | some s => s.modCore c fun x => { x with wait := .fe g op.feData dst none false lim }
      | none => s.modCore c fun x => { x with wait := .fe g op.feData dst none true lim }

/-- A full/empty access of tile n's sequencer at a slot elsewhere: a transaction. -/
def State.feAway (s : State) (n : Fin 144) (g : Nat) (op : TOp) (dst : Dst) (limit : Option Nat) : State :=
  let c := CoreId.tile n
  match s.quotaGate c true 1 with
  | .error s => s
  | .ok s =>
    let (tag, s) := s.sendTxn { agent := n, origin := .load, addr := g, op := op }
    match op with
    | .feRead _ | .feWrite _ =>
      let (lim, s) := match limit with
        | some l => (l, s)
        | none => s.sampleLimit n Reg.TILE_FE_TIMEOUT 0
      s.modCore c fun x => { x with wait := .fe g op.feData dst (some tag) false lim }
    | _ => s.modCore c fun x => { x with wait := .resp tag g dst }

/-- A full/empty instruction of tile n (R195): the address is judged as R752 lays down. -/
def State.feInstr (s : State) (n : Fin 144) (a : Dword) (op : TOp) (dst : Dst) : State :=
  let c := CoreId.tile n
  let g := a.toNat
  if 2 ^ 48 ≤ g then s.precise c 0x05 a
  else if g % 64 ≠ 0 then s.precise c 0x04 a
  else match spTile (g % 2 ^ 40) with
    | none => s.precise c 0x05 a
    | some m => if (s.localAddr g).isSome ∧ m = n.val then s.feOwn n g op dst none else s.feAway n g op dst none

/-- FE.SET or FE.CLEAR of s[rs2] slots (R195): several only within the own tile; all are judged before the first changes. -/
def State.feMark (s : State) (n : Fin 144) (a count : Dword) (full : Bool) : State :=
  let c := CoreId.tile n
  let g := a.toNat
  let k := max count.toNat 1
  let op := if full then TOp.feSet else .feClear
  match spTile (g % 2 ^ 40) with
  | some m =>
    if 2 ^ 48 ≤ g ∨ g % 64 ≠ 0 ∨ !((s.localAddr g).isSome && m == n.val) then
      if 2 ^ 48 ≤ g ∨ g % 64 ≠ 0 ∨ k = 1 then s.feInstr n a op .none else s.precise c 0x05 a
    else if 2 ^ 20 < g % 2 ^ 20 + 64 * k then s.precise c 0x05 a
    else
      let ws := (List.range k).map fun i => s.spWord n (g % 2 ^ 20 + 64 * i)
      if s.initBusy n || ws.any (fun w => s.handoverHolds n w (s.ownerOf n w) || s.spopHolds n w) then s
      else
        let s := s.ownerUse n
        match ws.find? fun w => !tagAdmits (s.ownerOf n w) with
        | some w => (s.refuseWord n w rqTag).precise c 0x07 a
        | none => (ws.foldl (fun (s : State) w => (s.feAt n w op).2) s).retire c
  | none => s.feInstr n a op .none

/-- FE.WRITE (R195): form .V writes elements 0 to 15 of v[rs2], form .S bytes 0 to 7 from s[rs2]. -/
def execFeWrite (c : CoreId) (scalar : Bool) (rs1 rs2 : BitVec 5) (s : State) : Out :=
  .next (s.live fun s => s.tileOnly c (wordT 0x2A 8 (b2n scalar) rs2 rs1 0) fun n s =>
    let x := s.core c
    let bs := if scalar then leBytes 8 (x.sreg rs2).toNat else leBytes 64 (x.vreg rs2).toNat
    s.feInstr n (x.sreg rs1) (.feWrite bs) .none)

/-- FE.READ (R195, R197). -/
def execFeRead (c : CoreId) (scalar : Bool) (rd rs1 : BitVec 5) (s : State) : Out :=
  .next (s.live fun s => s.tileOnly c (wordT 0x2A 9 (b2n scalar) 0 rs1 rd) fun n s =>
    s.feInstr n ((s.core c).sreg rs1) (.feRead scalar) (if scalar then .scalar rd 8 false else .slotV rd))

/-- FE.PEEK (R195, R197): the data, and the tag to s[rs2]. -/
def execFePeek (c : CoreId) (scalar : Bool) (rd rs1 rs2 : BitVec 5) (s : State) : Out :=
  .next (s.live fun s => s.tileOnly c (wordT 0x2A 10 (b2n scalar) rs2 rs1 rd) fun n s =>
    s.feInstr n ((s.core c).sreg rs1) .fePeek (.peek scalar rd rs2))

/-- FE.SET (R195). -/
def execFeSet (c : CoreId) (rs1 rs2 : BitVec 5) (s : State) : Out :=
  .next (s.live fun s =>
    s.tileOnly c (wordT 0x2A 11 0 rs2 rs1 0) fun n s => s.feMark n ((s.core c).sreg rs1) ((s.core c).sreg rs2) true)

/-- FE.CLEAR (R195). -/
def execFeClear (c : CoreId) (rs1 rs2 : BitVec 5) (s : State) : Out :=
  .next (s.live fun s =>
    s.tileOnly c (wordT 0x2A 12 0 rs2 rs1 0) fun n s => s.feMark n ((s.core c).sreg rs1) ((s.core c).sreg rs2) false)

/-- A requester refused with FULL or EMPTY tries again (R196): a Skidder queue, or the sequencer. -/
def execFeRetry (n : Fin 144) (queue : Option (Fin 8)) (s : State) : Out :=
  .next (s.live fun s => match queue with
    | some q => s.skRetry n q
    | none =>
      match (s.core (.tile n)).wait with
      | .fe g w dst none true lim =>
        match s.localAddr g, spTile (g % 2 ^ 40) with
        | some _, some m => if m = n.val then s.feOwn n g (feOp w dst) dst (some lim) else s.feAway n g (feOp w dst) dst (some lim)
        | _, _ => s.feAway n g (feOp w dst) dst (some lim)
      | _ => s)

/-- Has the request of a full/empty wait been served, so that its response is only on its way. -/
def State.feServed (s : State) (tag : Option Nat) : Bool :=
  match tag.bind s.txn with
  | some t => match t.st with
    | .answered (.data ..) | .answered .ack => true
    | _ => false
  | none => false

/-- The full/empty wait of tile n expires (R219, R346): event 0x1020 and 0x0C, with the request withdrawn.  A wait with no
limit does not, nor one whose request has been served (R217). -/
def execFeTimeout (n : Fin 144) (s : State) : Out :=
  .next (s.live fun s => match (s.core (.tile n)).wait with
    | .fe g _ _ tag _ lim =>
      if lim = 0 || s.feServed tag then s
      else
        let here := match s.localAddr g with | some l => s.chipId * 2 ^ 40 + l | none => g
        let task := fld (s.core (.tile n)).taskid 15 0
        let s := (s.cancelFe n tag).raise 0x1020 n (here + 2 ^ 48 * task)
        (s.modCore (.tile n) fun x => { x with wait := .none }).precise (.tile n) 0x0C (BitVec.ofNat 64 g)
    | _ => s)

/-! ### DMA.POST and DMA.WAIT (R200, R387, R388) -/

/-- DMA.POST (R200): the checked descriptor goes into the ring of queue q through the Skidder's port, and the new post count
to s[rd]; 0x10 for a DISABLED queue (R393); a full ring stalls it; a ring word that SKID does not own takes 0x07. -/
def execDmaPost (c : CoreId) (rd rs1 : BitVec 5) (q : Fin 8) (s : State) : Out :=
  .next (s.live fun s => s.tileOnly c (wordT 0x2C 0 q 0 rs1 rd) fun n s =>
    let a := (s.core c).sreg rs1
    match s.descriptor n a.toNat 0x10 dmaOk with
    | .stall => s
    | .bad e s => s.precise c e a
    | .got d s =>
      if !s.skEn n q then s.precise c 0x10 a
      else if s.skSize n q ≤ s.skUsed n q then s
      else
        let o := s.skEntry n q (s.skPost n q)
        let w := s.spWord n o
        if 2 ^ 20 ≤ o then s.precise c 0x05 a
        else if s.handoverHolds n w oSkid then s
        else if (s.ownerUse n).ownerOf n w ≠ oSkid then ((s.ownerUse n).refuseWord n w rqSkid).precise c 0x07 a
        else
          let s := (((s.ownerUse n).gbFlush n w).putWord n w d).countWrap (Reg.TILE n (Reg.TILE_SKQ_POST q))
          (s.modCore c fun x => x.setS rd (zx64 (s.skPost n q))).retire c)

/-! ### Waits (R201 to R206, R219) -/

/-- DMA.WAIT (R200): until the completion count reaches s[rs1][31:0]. -/
def execDmaWait (c : CoreId) (rs1 : BitVec 5) (q : Fin 8) (s : State) : Out :=
  .next (s.live fun s => s.tileOnly c (wordT 0x2C 1 q 0 rs1 0) fun n s =>
    let target : Word := ((s.core c).sreg rs1).setWidth 32
    if s.dmaReached n q target then s.retire c
    else
      let (lim, s) := s.sampleLimit n Reg.TILE_WAIT_TIMEOUT 1
      s.modCore c fun x => { x with wait := .dmaWait q target lim })

/-- BAR b (R201); on a Ranger core it completes at once (R178). -/
def execBar (c : CoreId) (b : Fin 8) (s : State) : Out :=
  .next (s.live fun s => s.issue c fun s => match c with
    | .ranger _ => s.retire c
    | .tile n =>
      let (lim, s) := s.sampleLimit n Reg.TILE_WAIT_TIMEOUT 1
      s.barArrive n b lim)

/-- WAITEV (R203); a mask of 0 completes at once. -/
def execWaitev (c : CoreId) (rd rs1 : BitVec 5) (all : Bool) (s : State) : Out :=
  .next (s.live fun s => s.issue c fun s =>
    let mask := (s.core c).sreg rs1
    if evSatisfied (s.eventBits c) mask all then s.takeEvents c mask rd
    else
      let (lim, s) := match c with
        | .tile n => s.sampleLimit n Reg.TILE_WAIT_TIMEOUT 1
        | .ranger _ => (0, s)
      s.modCore c fun x => { x with wait := .waitev mask all rd lim })

/-- YIELD n (R204): issue stops for 2^n cycles. -/
def execYield (c : CoreId) (k : Fin 16) (s : State) : Out :=
  .next (s.live fun s => s.issue c fun s => s.modCore c fun x => { x with wait := .yield k })

/-- The cycles of a YIELD have passed. -/
def execYieldEnd (c : CoreId) (s : State) : Out :=
  .next (s.live fun s => match (s.core c).wait with
    | .yield _ => s.retire c
    | _ => s)

/-- PHASE n (R205, R178): the phase register, which the power manager reads. -/
def execPhase (c : CoreId) (k : Fin 16) (s : State) : Out :=
  .next (s.live fun s => s.issue c fun s => (s.modCore c fun x => { x with phase := BitVec.ofNat 64 k }).retire c)

/-- The wait of tile n in BAR, WAITEV or DMA.WAIT expires: 0x0D with tval the barrier, the mask or the queue; a BAR withdraws
its arrival (R219).  A wait with no limit does not expire. -/
def execWaitTimeout (n : Fin 144) (s : State) : Out :=
  .next (s.live fun s => let c := CoreId.tile n
    let stop := fun (s : State) (v : Dword) => (s.modCore c fun x => { x with wait := .none }).precise c 0x0D v
    match (s.core c).wait with
    | .bar b lim => if lim = 0 then s else stop (s.withdraw n) (BitVec.ofNat 64 b)
    | .waitev mask _ _ lim => if lim = 0 then s else stop s mask
    | .dmaWait q _ lim => if lim = 0 then s else stop s (BitVec.ofNat 64 q)
    | _ => s)

end Sys2Proof.Machine
end

