-- ==== Sys2Proof/Machine/TileCmds.lean ====
section
/-! DEFINITION. The commands of chapters 07 to 10: engines of a tile, the scratchpad, and what a tile does in its own time. -/

namespace Sys2Proof.Machine
open Sys2Proof

/-- PASS_COMPLETE (R207 to R239, R309 to R321, R613, R614): macro m finishes a pass; `first` and `rerun` are the
transient faults of the pass and of its repetition. -/
def execPassComplete (n : Fin 144) (m : Fin 16) (first rerun : Option PassHit) (s : State) : Out :=
  .next (s.live fun s => s.passComplete n m.val first rerun)

/-- MLOAD_DONE (R239): targets 0 to 15 are macros, 16 to 25 table slots. -/
def execMloadDone (n : Fin 144) (target : Fin 26) (s : State) : Out :=
  .next (s.live fun s => s.mloadDone n target.val)

/-- ACC_CLOSE_END (R190, R302): the ACC.CLOSE at the head of the Bucker does what it can. -/
def execAccCloseEnd (n : Fin 144) (s : State) : Out :=
  .next (s.live fun s => (s.closeStep n).engines n)

/-- QOUT_END (R267 to R281): the QOUT at the head of the Chipper. -/
def execQoutEnd (n : Fin 144) (s : State) : Out :=
  .next (s.live fun s => (s.qoutStep n).engines n)

/-- DEBUG_WINDOW_READ (R242). -/
def execDebugWindowRead (tag : BitVec 17) (s : State) : Out :=
  .next (s.live fun s => s.dbgAccess tag.toNat false)

/-- DEBUG_WINDOW_WRITE (R243). -/
def execDebugWindowWrite (tag : BitVec 17) (s : State) : Out :=
  .next (s.live fun s => s.dbgAccess tag.toNat true)

/-- ACC_STAT_END (R192, R307). -/
def execAccStatEnd (n : Fin 144) (s : State) : Out :=
  .next (s.live fun s => (s.statStep n).engines n)

/-- MSCRUB_END (R188). -/
def execMscrubEnd (n : Fin 144) (s : State) : Out :=
  .next (s.live fun s => s.mscrubDone n)

/-- SP_REMOTE_ACCESS (R196, R327 to R331). -/
def execSpRemoteAccess (tag : BitVec 17) (s : State) : Out :=
  .next (s.live fun s => s.spAccess tag.toNat)

/-- GB_IDLE_WRITEBACK (R336): an entry idle for 256 tile cycles is written back and dropped. -/
def execGbIdleWriteback (n : Fin 144) (entry : Fin 8) (s : State) : Out :=
  .next (s.live fun s =>
    match (s.tile n).gb[entry.val]? with
    | some e => s.gbFlush n e.word
    | none => s)

/-- OWNER_HANDOVER (R332): TILE_OWNER written. -/
def execOwnerHandover (a : Agent) (n : Fin 144) (v : Word) (s : State) : Out :=
  .next (s.live fun s => s.agentWrite a (Reg.TILE n Reg.TILE_OWNER) v)

/-- HANDOVER_COMPLETE (R333, Table 10-2): requests that waited at the bank follow. -/
def execHandoverComplete (n : Fin 144) (s : State) : Out :=
  .next (s.live fun s => (((s.handoverEnd n).regDrain n).engines n).heldGo)

/-- STRIPE_WRITE (R355). -/
def execStripeWrite (a : Agent) (n : Fin 144) (i : Fin 4) (v : Word) (s : State) : Out :=
  .next (s.live fun s => s.agentWrite a (Reg.TILE n (Reg.TILE_STRIPE i.val)) v)

/-- CACHE_WB (R343). -/
def execCacheWb (a : Agent) (n : Fin 144) (s : State) : Out :=
  .next (s.live fun s => s.agentWrite a (Reg.TILE n Reg.TILE_CACHE_CTRL) 1)

/-- CACHE_INV (R343). -/
def execCacheInv (a : Agent) (n : Fin 144) (s : State) : Out :=
  .next (s.live fun s => s.agentWrite a (Reg.TILE n Reg.TILE_CACHE_CTRL) 2)

/-- CACHE_MAINT_END (R343). -/
def execCacheMaintEnd (n : Fin 144) (s : State) : Out :=
  .next (s.live fun s => s.cacheMaintEnd n)

/-- SP_SCRUB_WORD (R348, R611), after the cell upsets that `hits` lists. -/
def execSpScrubWord (n : Fin 144) (hits : List CellHit) (s : State) : Out :=
  .next (s.live fun s => s.spScrub n hits)

/-- SP_INIT_COMPLETE (R357): requests that waited at the banks follow. -/
def execSpInitComplete (n : Fin 144) (s : State) : Out :=
  .next (s.live fun s => (s.spInit n).heldGo)

/-- EVENT_BIT_SET (R202): TILE_EV_LO or TILE_EV_HI written. -/
def execEventBitSet (a : Agent) (n : Fin 144) (hi : Bool) (v : Word) (s : State) : Out :=
  .next (s.live fun s => s.agentWrite a (Reg.TILE n (if hi then Reg.TILE_EV_HI else Reg.TILE_EV_LO)) v)

/-- EVENT_BIT_CLEAR (R202): TILE_EVCLR_LO or TILE_EVCLR_HI written. -/
def execEventBitClear (a : Agent) (n : Fin 144) (hi : Bool) (v : Word) (s : State) : Out :=
  .next (s.live fun s => s.agentWrite a (Reg.TILE n (if hi then Reg.TILE_EVCLR_HI else Reg.TILE_EVCLR_LO)) v)

/-- DBG_REG_WRITE (R115): TILE_DBG_LO or TILE_DBG_HI written. -/
def execDbgRegWrite (a : Agent) (n : Fin 144) (hi : Bool) (v : Word) (s : State) : Out :=
  .next (s.live fun s => s.agentWrite a (Reg.TILE n (if hi then Reg.TILE_DBG_HI else Reg.TILE_DBG_LO)) v)

end Sys2Proof.Machine
end

