-- ==== Sys2Proof/Machine/UartCmds.lean ====
section
/-! DEFINITION. The commands of chapters 22 and 23: the service UARTs and the pins. -/

namespace Sys2Proof.Machine
open Sys2Proof

/-- Does the receiver of UART k look at its line. -/
def State.rxLooks (s : State) (k : Nat) : Bool :=
  s.bit (Reg.UART k Reg.UART_CTRL) 0 && !(s.uart k).inBreak && ((s.rxdPin k).isSome || ((s.rxFormat k).rxCutAt k).isSome)

/-- A carriage return without error, stored or lost, on UART0 is wake source 1 (R605). -/
def State.rxWake (s : State) (k : Nat) (line : List Nat) : State :=
  let probe := (s.modUart k fun u => { u with rx := [] }).rxChar k line
  match ((probe.uart k).rx).head? with
  | some e => if k = 0 ∧ fld e 10 0 = 0x0D then s.retentionWake 1 else s
  | none => s

/-- CHARACTER_RECEIVE (R680 to R687, R692, R693): `line` lists the transitions of the line. In RETAINED a carriage
return on UART0 wakes the tray (R605); in RECOVERY the boot ROM takes the characters (R508). -/
def execCharacterReceive (k : Fin 2) (line : List Nat) (s : State) : Out :=
  .next (s.live fun s => ((s.rxWake k.val line).rxChar k.val line).recChars)

/-- GLITCH (R682). -/
def execGlitch (k : Fin 2) (s : State) : Out :=
  .next (s.live fun s => if s.rxLooks k.val then s.rxGlitch k.val else s)

/-- BREAK_RECEIVE (R689). -/
def execBreakReceive (k : Fin 2) (s : State) : Out :=
  .next (s.live fun s => if s.rxLooks k.val then s.rxBreak k.val else s)

/-- BREAK_END (R689), after so many sixteenths of a bit. -/
def execBreakEnd (k : Fin 2) (sixteenths : Nat) (s : State) : Out :=
  .next (s.live fun s => s.rxBreakEnd k.val sixteenths)

/-- BREAK_LENGTH_LIMIT (R689). -/
def execBreakLengthLimit (k : Fin 2) (s : State) : Out :=
  .next (s.live fun s => s.rxBreakLimit k.val)

/-- IDLE_LINE (R691). -/
def execIdleLine (k : Fin 2) (s : State) : Out :=
  .next (s.live fun s => if s.rxLooks k.val then s.rxIdle k.val else s)

/-- RX_READ (R688): UARTk_RX read. -/
def execRxRead (a : Agent) (k : Fin 2) (s : State) : Out :=
  .next (s.live fun s => s.agentRead a (Reg.UART k.val Reg.UART_RX))

/-- TX_WRITE (R688, R698): UARTk_TX written. -/
def execTxWrite (a : Agent) (k : Fin 2) (v : Word) (s : State) : Out :=
  .next (s.live fun s => s.agentWrite a (Reg.UART k.val Reg.UART_TX) v)

/-- CHARACTER_TRANSMIT (R680). -/
def execCharacterTransmit (k : Fin 2) (s : State) : Out :=
  .next (s.live fun s => s.txSend k.val)

/-- SEND_BREAK (R690): UARTk_BRK written with SEND 1. -/
def execSendBreak (a : Agent) (k : Fin 2) (v : Word) (s : State) : Out :=
  .next (s.live fun s => s.agentWrite a (Reg.UART k.val Reg.UART_BRK) (fixBits v [16] []))

/-- RX_FLUSH (R696): UARTk_CTRL written with RX_FLUSH 1 and TX_FLUSH 0. -/
def execRxFlush (a : Agent) (k : Fin 2) (v : Word) (s : State) : Out :=
  .next (s.live fun s => s.agentWrite a (Reg.UART k.val Reg.UART_CTRL) (fixBits v [4] [5]))

/-- TX_FLUSH (R688): UARTk_CTRL written with TX_FLUSH 1 and RX_FLUSH 0. -/
def execTxFlush (a : Agent) (k : Fin 2) (v : Word) (s : State) : Out :=
  .next (s.live fun s => s.agentWrite a (Reg.UART k.val Reg.UART_CTRL) (fixBits v [5] [4]))

/-- FUNC_HANDOVER (R709): PINS_CFGi written. -/
def execFuncHandover (a : Agent) (i : Fin 32) (v : Word) (s : State) : Out :=
  .next (s.live fun s => s.agentWrite a (Reg.PINS_CFG i.val) v)

/-- HANDOVER_CONNECT (R709). -/
def execHandoverConnect (i : Fin 32) (s : State) : Out :=
  .next (s.live fun s => s.pinConnect i.val)

/-- GPIO_EDGE (R705). -/
def execGpioEdge (i : Fin 32) (level : Bool) (s : State) : Out :=
  .next (s.live fun s => s.pinEdge i.val level)

end Sys2Proof.Machine
end

