-- ==== Sys2Proof/Machine/Vector.lean ====
section
/-! DEFINITION. Meanings of the vector and mask instructions of chapter 05 (R155 to R165). -/

namespace Sys2Proof.Machine
open Sys2Proof

/-- A vector of lanes of an element type: f where the governing mask bit is 1, the old lane elsewhere (R155). -/
def maskedLanes (ty : BitVec 2) (m : Dword) (old : BitVec 2048) (f : Nat → Nat) : BitVec 2048 :=
  ofLanes (laneBits ty) (laneCount ty) fun i => if laneOn ty m i then f i else lane (laneBits ty) old i

/-- A VARITH instruction that writes a vector: f of the lanes of vd, vs1 and vs2 (R156); a type the table does not give
raises 0x01 (R139).  Every source is the value before the instruction (R172). -/
def State.varith (s : State) (c : CoreId) (fn5 : Nat) (ty : BitVec 2) (vd vs1 vs2 : BitVec 5) (msk : BitVec 3)
    (f : Nat → Nat → Nat → Nat) : State :=
  s.issue c fun s =>
    if varithTypes fn5 ty.toNat then
      let x := s.core c
      let b := laneBits ty
      let v := maskedLanes ty (x.mreg msk) (x.vreg vd) fun i =>
        f (lane b (x.vreg vd) i) (lane b (x.vreg vs1) i) (lane b (x.vreg vs2) i)
      (s.setCore c (x.setV vd v)).retire c
    else s.illegal c (wordV 0x21 fn5 ty.toNat msk vs2 vs1 vd)

/-- A VARITH compare (R157): bit i of m[md]. -/
def State.vcompare (s : State) (c : CoreId) (fn5 : Nat) (ty : BitVec 2) (md : BitVec 3) (vs1 vs2 : BitVec 5)
    (msk : BitVec 3) (f : Nat → Nat → Bool) : State :=
  s.issue c fun s =>
    if varithTypes fn5 ty.toNat then
      let x := s.core c
      let m := x.mreg msk
      let r := (List.range 64).foldl (fun a i =>
        a + if m.getLsbD i && f (lane 32 (x.vreg vs1) i) (lane 32 (x.vreg vs2) i) then 2 ^ i else 0) 0
      (s.setCore c (x.setM md (BitVec.ofNat 64 r))).retire c
    else s.illegal c (wordV 0x21 fn5 ty.toNat msk vs2 vs1 (md.setWidth 5))

/-- A VMISC instruction that writes the 64 elements of vd under a mask (R163). -/
def State.vmisc (s : State) (c : CoreId) (vd : BitVec 5) (msk : BitVec 3) (f : Core → Nat → Nat) : State :=
  s.issue c fun s =>
    let x := s.core c
    (s.setCore c (x.setV vd (maskedLanes 0 (x.mreg msk) (x.vreg vd) (f x)))).retire c

/-- An operation that writes a mask register. -/
def State.maskOp (s : State) (c : CoreId) (md : BitVec 3) (f : Core → Dword) : State :=
  s.issue c fun s => (s.modCore c fun x => x.setM md (f x)).retire c

/-- Per-type choice: I32 or an FP type of `fracBits` fraction bits. -/
def byType (ty : BitVec 2) (i : Nat → Nat → Nat) (f : Nat → Nat → Nat → Nat) (a b : Nat) : Nat :=
  if ty = 2 then i a b else f (fracBits ty) a b

/-- The absolute value: the sign bit cleared in FP (R160), wrapping in I32 (R158). -/
def laneAbs (ty : BitVec 2) (a : Nat) : Nat :=
  if ty = 2 then (if 2 ^ 31 ≤ a then (2 ^ 32 - a) % 2 ^ 32 else a) else a % 2 ^ (laneBits ty - 1)

/-- The negation: the sign bit flipped in FP (R160), wrapping in I32 (R158). -/
def laneNeg (ty : BitVec 2) (a : Nat) : Nat :=
  if ty = 2 then (2 ^ 32 - a) % 2 ^ 32 else (a + 2 ^ (laneBits ty - 1)) % 2 ^ laneBits ty

/-- FP32 or I32 equality; a NaN equals nothing, -0 equals +0 (R157). -/
def laneEq (ty : BitVec 2) (a b : Nat) : Bool :=
  if ty = 2 then a == b
  else !fpIsNan 23 a && !fpIsNan 23 b && !fpLt (fpDec 23 a) (fpDec 23 b) && !fpLt (fpDec 23 b) (fpDec 23 a)

/-- FP32 or signed I32 order (R157). -/
def laneLt (ty : BitVec 2) (a b : Nat) : Bool :=
  if ty = 2 then decide (sInt 32 a < sInt 32 b) else fpLt (fpDec 23 a) (fpDec 23 b)

/-- Reductions: sum, max, min. -/
inductive Red where
  | sum | max | min
  deriving DecidableEq, Repr

/-- One step of a reduction, FP32 or I32 (R164). -/
def Red.step (r : Red) (int : Bool) (a b : Nat) : Nat :=
  match r, int with
  | .sum, true => (a + b) % 2 ^ 32
  | .max, true => if sInt 32 a < sInt 32 b then b else a
  | .min, true => if sInt 32 b < sInt 32 a then b else a
  | .sum, false => fpAdd 23 a b
  | .max, false => fpMax 23 a b
  | .min, false => fpMin 23 a b

/-- The identity an inactive element enters as (R165). -/
def Red.identity (r : Red) (int : Bool) : Nat :=
  match r, int with
  | .sum, _ => 0
  | .max, true => 2 ^ 31
  | .min, true => 2 ^ 31 - 1
  | .max, false => fpInf 23 true
  | .min, false => fpInf 23 false

/-- The inputs of a reduction: 64 elements, or 128 BF16 lanes as FP32. -/
def Red.inputs (r : Red) (ty : BitVec 2) (m : Dword) (v : BitVec 2048) : List Nat :=
  (List.range (laneCount ty)).map fun i =>
    if laneOn ty m i then (if ty = 1 then fpCvt 7 23 (lane 16 v i) else lane 32 v i) else r.identity (ty == 2)

/-- The reduced value in the element type: a balanced tree (R164). -/
def Red.value (r : Red) (ty : BitVec 2) (m : Dword) (v : BitVec 2048) : Nat :=
  let x := ((pairTree (r.step (ty == 2)) 8 (r.inputs ty m v))).getD 0
  if ty = 1 then fpCvt 23 7 x else x

/-- A reduction: every element of vd gets the value, whatever the mask (R165). -/
def State.reduce (s : State) (c : CoreId) (r : Red) (fn5 : Nat) (ty : BitVec 2) (vd vs1 : BitVec 5) (msk : BitVec 3) :
    State :=
  s.issue c fun s =>
    if ty = 3 then s.illegal c (wordV 0x22 fn5 3 msk 0 vs1 vd)
    else
      let x := s.core c
      let y := r.value ty (x.mreg msk) (x.vreg vs1)
      (s.setCore c (x.setV vd (ofLanes (laneBits ty) (laneCount ty) fun _ => y))).retire c

/-- The result of a conversion of kind 0 to 6 (Table 5-13). -/
def convert (kind : Nat) (m : Dword) (old v : BitVec 2048) : BitVec 2048 :=
  let half := fun (lo : Nat) => ofLanes 16 128 fun j =>
    if lo ≤ j ∧ j < lo + 64 ∧ m.getLsbD (j - lo) then fpCvt 23 7 (lane 32 v (j - lo)) else lane 16 old j
  let wide := fun (f : Nat → Nat) => maskedLanes 0 m old f
  match kind with
  | 0 => half 0
  | 1 => half 64
  | 2 => wide fun i => fpCvt 7 23 (lane 16 v i)
  | 3 => wide fun i => fpCvt 7 23 (lane 16 v (64 + i))
  | 4 => wide fun i => (BitVec.ofInt 32 (fpToI32 (lane 32 v i) false)).toNat
  | 5 => wide fun i => (BitVec.ofInt 32 (fpToI32 (lane 32 v i) true)).toNat
  | _ => wide fun i => fpOfInt 23 (sInt 32 (lane 32 v i))

/-- VADD (R156, R158, R159). -/
def execVadd (c : CoreId) (ty : BitVec 2) (vd vs1 vs2 : BitVec 5) (msk : BitVec 3) (s : State) : Out :=
  .next (s.live fun s => s.varith c 0 ty vd vs1 vs2 msk fun _ a b => byType ty (fun a b => a + b) fpAdd a b)

/-- VSUB (R156, R158, R159). -/
def execVsub (c : CoreId) (ty : BitVec 2) (vd vs1 vs2 : BitVec 5) (msk : BitVec 3) (s : State) : Out :=
  .next (s.live fun s => s.varith c 1 ty vd vs1 vs2 msk fun _ a b => byType ty (fun a b => a + (2 ^ 32 - b)) fpSub a b)

/-- VMUL (R156, R158, R159). -/
def execVmul (c : CoreId) (ty : BitVec 2) (vd vs1 vs2 : BitVec 5) (msk : BitVec 3) (s : State) : Out :=
  .next (s.live fun s => s.varith c 2 ty vd vs1 vs2 msk fun _ a b => byType ty (fun a b => a * b) fpMul a b)

/-- VFMA (R156, R159). -/
def execVfma (c : CoreId) (ty : BitVec 2) (vd vs1 vs2 : BitVec 5) (msk : BitVec 3) (s : State) : Out :=
  .next (s.live fun s => s.varith c 3 ty vd vs1 vs2 msk fun d a b => fpFma (fracBits ty) d a b)

/-- VFMS (R156, R159). -/
def execVfms (c : CoreId) (ty : BitVec 2) (vd vs1 vs2 : BitVec 5) (msk : BitVec 3) (s : State) : Out :=
  .next (s.live fun s => s.varith c 4 ty vd vs1 vs2 msk fun d a b => fpFms (fracBits ty) d a b)

/-- VMAX (R156, R161). -/
def execVmax (c : CoreId) (ty : BitVec 2) (vd vs1 vs2 : BitVec 5) (msk : BitVec 3) (s : State) : Out :=
  .next (s.live fun s => s.varith c 5 ty vd vs1 vs2 msk fun _ a b => byType ty (Red.max.step true) fpMax a b)

/-- VMIN (R156, R161). -/
def execVmin (c : CoreId) (ty : BitVec 2) (vd vs1 vs2 : BitVec 5) (msk : BitVec 3) (s : State) : Out :=
  .next (s.live fun s => s.varith c 6 ty vd vs1 vs2 msk fun _ a b => byType ty (Red.min.step true) fpMin a b)

/-- VABS (R156, R160). -/
def execVabs (c : CoreId) (ty : BitVec 2) (vd vs1 : BitVec 5) (msk : BitVec 3) (s : State) : Out :=
  .next (s.live fun s => s.varith c 7 ty vd vs1 0 msk fun _ a _ => laneAbs ty a)

/-- VNEG (R156, R160). -/
def execVneg (c : CoreId) (ty : BitVec 2) (vd vs1 : BitVec 5) (msk : BitVec 3) (s : State) : Out :=
  .next (s.live fun s => s.varith c 8 ty vd vs1 0 msk fun _ a _ => laneNeg ty a)

/-- VEXP2 (R156, R162). -/
def execVexp2 (c : CoreId) (ty : BitVec 2) (vd vs1 : BitVec 5) (msk : BitVec 3) (s : State) : Out :=
  .next (s.live fun s => s.varith c 9 ty vd vs1 0 msk fun _ a _ => fpExp2 (fracBits ty) a)

/-- VLOG2 (R156, R162). -/
def execVlog2 (c : CoreId) (ty : BitVec 2) (vd vs1 : BitVec 5) (msk : BitVec 3) (s : State) : Out :=
  .next (s.live fun s => s.varith c 10 ty vd vs1 0 msk fun _ a _ => fpLog2 (fracBits ty) a)

/-- VRCP (R156, R162). -/
def execVrcp (c : CoreId) (ty : BitVec 2) (vd vs1 : BitVec 5) (msk : BitVec 3) (s : State) : Out :=
  .next (s.live fun s => s.varith c 11 ty vd vs1 0 msk fun _ a _ => fpRcp (fracBits ty) a)

/-- VRSQ (R156, R162). -/
def execVrsq (c : CoreId) (ty : BitVec 2) (vd vs1 : BitVec 5) (msk : BitVec 3) (s : State) : Out :=
  .next (s.live fun s => s.varith c 12 ty vd vs1 0 msk fun _ a _ => fpRsq (fracBits ty) a)

/-- VAND (R156). -/
def execVand (c : CoreId) (ty : BitVec 2) (vd vs1 vs2 : BitVec 5) (msk : BitVec 3) (s : State) : Out :=
  .next (s.live fun s => s.varith c 13 ty vd vs1 vs2 msk fun _ a b => a &&& b)

/-- VOR (R156). -/
def execVor (c : CoreId) (ty : BitVec 2) (vd vs1 vs2 : BitVec 5) (msk : BitVec 3) (s : State) : Out :=
  .next (s.live fun s => s.varith c 14 ty vd vs1 vs2 msk fun _ a b => a ||| b)

/-- VXOR (R156). -/
def execVxor (c : CoreId) (ty : BitVec 2) (vd vs1 vs2 : BitVec 5) (msk : BitVec 3) (s : State) : Out :=
  .next (s.live fun s => s.varith c 15 ty vd vs1 vs2 msk fun _ a b => a ^^^ b)

/-- VSLL (R156). -/
def execVsll (c : CoreId) (ty : BitVec 2) (vd vs1 vs2 : BitVec 5) (msk : BitVec 3) (s : State) : Out :=
  .next (s.live fun s => s.varith c 16 ty vd vs1 vs2 msk fun _ a b => a <<< (b % 32))

/-- VSRL (R156). -/
def execVsrl (c : CoreId) (ty : BitVec 2) (vd vs1 vs2 : BitVec 5) (msk : BitVec 3) (s : State) : Out :=
  .next (s.live fun s => s.varith c 17 ty vd vs1 vs2 msk fun _ a b => a >>> (b % 32))

/-- VSRA (R156). -/
def execVsra (c : CoreId) (ty : BitVec 2) (vd vs1 vs2 : BitVec 5) (msk : BitVec 3) (s : State) : Out :=
  .next (s.live fun s => s.varith c 18 ty vd vs1 vs2 msk fun _ a b => ((BitVec.ofNat 32 a).sshiftRight (b % 32)).toNat)

/-- VCEQ (R156, R157). -/
def execVceq (c : CoreId) (ty : BitVec 2) (md : BitVec 3) (vs1 vs2 : BitVec 5) (msk : BitVec 3) (s : State) : Out :=
  .next (s.live fun s => s.vcompare c 19 ty md vs1 vs2 msk (laneEq ty))

/-- VCLT (R156, R157). -/
def execVclt (c : CoreId) (ty : BitVec 2) (md : BitVec 3) (vs1 vs2 : BitVec 5) (msk : BitVec 3) (s : State) : Out :=
  .next (s.live fun s => s.vcompare c 20 ty md vs1 vs2 msk (laneLt ty))

/-- VCLE (R156, R157). -/
def execVcle (c : CoreId) (ty : BitVec 2) (md : BitVec 3) (vs1 vs2 : BitVec 5) (msk : BitVec 3) (s : State) : Out :=
  .next (s.live fun s => s.vcompare c 21 ty md vs1 vs2 msk (fun a b => laneLt ty a b || laneEq ty a b))

/-- VCVT (R163, Table 5-13); kinds 7 to 31 raise 0x01. -/
def execVcvt (c : CoreId) (kind : BitVec 5) (vd vs1 : BitVec 5) (msk : BitVec 3) (s : State) : Out :=
  .next (s.live fun s => s.issue c fun s =>
    if kind.toNat ≤ 6 then
      let x := s.core c
      (s.setCore c (x.setV vd (convert kind.toNat (x.mreg msk) (x.vreg vd) (x.vreg vs1)))).retire c
    else s.illegal c (wordV 0x22 0 0 msk kind vs1 vd))

/-- VREDSUM (R164, R165). -/
def execVredsum (c : CoreId) (ty : BitVec 2) (vd vs1 : BitVec 5) (msk : BitVec 3) (s : State) : Out :=
  .next (s.live fun s => s.reduce c .sum 1 ty vd vs1 msk)

/-- VREDMAX (R164, R165). -/
def execVredmax (c : CoreId) (ty : BitVec 2) (vd vs1 : BitVec 5) (msk : BitVec 3) (s : State) : Out :=
  .next (s.live fun s => s.reduce c .max 2 ty vd vs1 msk)

/-- VREDMIN (R164, R165). -/
def execVredmin (c : CoreId) (ty : BitVec 2) (vd vs1 : BitVec 5) (msk : BitVec 3) (s : State) : Out :=
  .next (s.live fun s => s.reduce c .min 3 ty vd vs1 msk)

/-- VPERM (Table 5-12). -/
def execVperm (c : CoreId) (vd vs1 vs2 : BitVec 5) (msk : BitVec 3) (s : State) : Out :=
  .next (s.live fun s => s.vmisc c vd msk fun x i => lane 32 (x.vreg vs1) (lane 32 (x.vreg vs2) i % 64))

/-- VROT (Table 5-12). -/
def execVrot (c : CoreId) (vd vs1 rs2 : BitVec 5) (msk : BitVec 3) (s : State) : Out :=
  .next (s.live fun s => s.vmisc c vd msk fun x i => lane 32 (x.vreg vs1) ((i + (x.sreg rs2).toNat) % 64))

/-- VBCAST (Table 5-12). -/
def execVbcast (c : CoreId) (vd rs1 : BitVec 5) (msk : BitVec 3) (s : State) : Out :=
  .next (s.live fun s => s.vmisc c vd msk fun x i => (x.sreg rs1).toNat)

/-- VEXT (Table 5-12): element s[rs2] mod 64, sign-extended. -/
def execVext (c : CoreId) (rd vs1 rs2 : BitVec 5) (s : State) : Out :=
  .next (s.live fun s => s.alu c rd fun x => sx64 (BitVec.ofNat 32 (lane 32 (x.vreg vs1) ((x.sreg rs2).toNat % 64))))

/-- VINS (Table 5-12): element s[rs2] mod 64 of vd. -/
def execVins (c : CoreId) (vd rs1 rs2 : BitVec 5) (s : State) : Out :=
  .next (s.live fun s => s.vmisc c vd 0 fun x i =>
    if i = (x.sreg rs2).toNat % 64 then (x.sreg rs1).toNat else lane 32 (x.vreg vd) i)

/-- VMOV (Table 5-12). -/
def execVmov (c : CoreId) (vd vs1 : BitVec 5) (msk : BitVec 3) (s : State) : Out :=
  .next (s.live fun s => s.vmisc c vd msk fun x i => lane 32 (x.vreg vs1) i)

/-- VSEL (Table 5-12): every element is written. -/
def execVsel (c : CoreId) (vd vs1 vs2 : BitVec 5) (msk : BitVec 3) (s : State) : Out :=
  .next (s.live fun s => s.vmisc c vd 0 fun x i => lane 32 (x.vreg (if (x.mreg msk).getLsbD i then vs1 else vs2)) i)

/-- VIOTA (Table 5-12). -/
def execViota (c : CoreId) (vd : BitVec 5) (msk : BitVec 3) (s : State) : Out :=
  .next (s.live fun s => s.vmisc c vd msk fun x i => i)

/-- MAND (Table 5-12). -/
def execMand (c : CoreId) (md m1 m2 : BitVec 3) (s : State) : Out :=
  .next (s.live fun s => s.maskOp c md fun x => x.mreg m1 &&& x.mreg m2)

/-- MOR (Table 5-12). -/
def execMor (c : CoreId) (md m1 m2 : BitVec 3) (s : State) : Out :=
  .next (s.live fun s => s.maskOp c md fun x => x.mreg m1 ||| x.mreg m2)

/-- MXOR (Table 5-12). -/
def execMxor (c : CoreId) (md m1 m2 : BitVec 3) (s : State) : Out :=
  .next (s.live fun s => s.maskOp c md fun x => x.mreg m1 ^^^ x.mreg m2)

/-- MANDN (Table 5-12). -/
def execMandn (c : CoreId) (md m1 m2 : BitVec 3) (s : State) : Out :=
  .next (s.live fun s => s.maskOp c md fun x => x.mreg m1 &&& ~~~x.mreg m2)

/-- MFM (Table 5-12). -/
def execMfm (c : CoreId) (rd : BitVec 5) (m1 : BitVec 3) (s : State) : Out :=
  .next (s.live fun s => s.alu c rd fun x => x.mreg m1)

/-- MTM (Table 5-12). -/
def execMtm (c : CoreId) (md : BitVec 3) (rs1 : BitVec 5) (s : State) : Out :=
  .next (s.live fun s => s.maskOp c md fun x => x.sreg rs1)

end Sys2Proof.Machine
end

