-- ==== Sys2Proof/Machine/YarderCmds.lean ====
section
/-! DEFINITION. The commands of chapter 13: flits, packets, links and windows of the Yarder. A packet row is a packet that arrives
complete; TYPE, VC and, where the type fixes it, NWORD are the row's. -/

namespace Sys2Proof.Machine
open Sys2Proof

/-- A control packet without data that arrives on link k. -/
def State.ctrlRow (s : State) (k type src tag addr poison : Nat) : State :=
  s.rowPacket k { type := BitVec.ofNat 8 type, vc := 3, nword := 0, src := BitVec.ofNat 8 src,
                  dst := BitVec.ofNat 8 s.chipId, tag := BitVec.ofNat 24 tag, status := 0, hops := 0,
                  addr := BitVec.ofNat 40 addr, size := 0, poison := BitVec.ofNat 16 poison, data := [] }

/-- FLIT_RECEIVE (R410 to R417): a flit, and the codewords that FEC corrected since the one before. -/
def execFlitReceive (k : Fin 64) (fec : BitVec 8) (bytes : List Byte) (s : State) : Out :=
  .next (s.live fun s =>
    ((s.countBy (Reg.YARDER k.val Reg.YARDER_FEC_CE) fec.toNat).flitArrives k.val bytes).budgetAnswers)

/-- RD (R419, R420, R435). -/
def execRd (k : Fin 64) (p : Packet) (s : State) : Out :=
  .next (s.live fun s => s.rowPacket k.val (rowHead p 0x01 0 0))

/-- WR (R420, R435). -/
def execWr (k : Fin 64) (p : Packet) (s : State) : Out :=
  .next (s.live fun s => s.rowPacket k.val (rowHead p 0x02 0 1))

/-- FE_RD (R436). -/
def execFeRd (k : Fin 64) (p : Packet) (s : State) : Out :=
  .next (s.live fun s => s.rowPacket k.val (rowHead p 0x03 0 0))

/-- FE_WR (R436). -/
def execFeWr (k : Fin 64) (p : Packet) (s : State) : Out :=
  .next (s.live fun s => s.rowPacket k.val (rowHead p 0x04 0 1))

/-- FE_PEEK (R435, R436). -/
def execYarderFePeek (k : Fin 64) (p : Packet) (s : State) : Out :=
  .next (s.live fun s => s.rowPacket k.val (rowHead p 0x05 0 0))

/-- FE_SET (R435, R436). -/
def execYarderFeSet (k : Fin 64) (p : Packet) (s : State) : Out :=
  .next (s.live fun s => s.rowPacket k.val (rowHead p 0x06 0 0))

/-- FE_CLR (R435, R436). -/
def execFeClr (k : Fin 64) (p : Packet) (s : State) : Out :=
  .next (s.live fun s => s.rowPacket k.val (rowHead p 0x07 0 0))

/-- RD_RSP (R420): one data word if OK, else none. -/
def execRdRsp (k : Fin 64) (p : Packet) (s : State) : Out :=
  .next (s.live fun s => s.rowPacket k.val (rowHead p 0x10 1 (if p.status = 0 then 1 else 0)))

/-- WR_ACK (R420). -/
def execWrAck (k : Fin 64) (p : Packet) (s : State) : Out :=
  .next (s.live fun s => s.rowPacket k.val (rowHead p 0x11 1 0))

/-- FE_RSP (R420). -/
def execFeRsp (k : Fin 64) (p : Packet) (s : State) : Out :=
  .next (s.live fun s => s.rowPacket k.val (rowHead p 0x12 1 p.nword.toNat))

/-- WR_BULK (R422). -/
def execWrBulk (k : Fin 64) (p : Packet) (s : State) : Out :=
  .next (s.live fun s => s.rowPacket k.val (rowHead p 0x20 2 p.nword.toNat))

/-- BULK_ACK (R423). -/
def execBulkAck (k : Fin 64) (p : Packet) (s : State) : Out :=
  .next (s.live fun s => s.rowPacket k.val (rowHead p 0x21 1 0))

/-- TRAINING_COMPLETE (R424, R447): training ended, with the settings that YARDER_TRAIN shows. -/
def execTrainingComplete (k : Fin 64) (ok : Bool) (settings : BitVec 24) (s : State) : Out :=
  .next (s.live fun s => if s.yarderOn then s.trained k.val ok settings.toNat else s)

/-- HELLO (R424 to R426). -/
def execHello (k : Fin 64) (h : HelloWord) (s : State) : Out :=
  .next (s.live fun s => if s.yarderOn then s.helloIn k.val h else s)

/-- HELLO_ACK (R424 to R426). -/
def execHelloAck (k : Fin 64) (h : HelloWord) (s : State) : Out :=
  .next (s.live fun s => if s.yarderOn then s.helloAckIn k.val h else s)

/-- LINK_LOST (R430); `codeword`: an RS codeword was uncorrectable, which YARDER_FEC_UE counts. -/
def execLinkLost (k : Fin 64) (codeword : Bool) (s : State) : Out :=
  .next (s.live fun s => (if codeword then s.count (Reg.YARDER k.val Reg.YARDER_FEC_UE) else s).linkFail k.val)

/-- FAILOVER (R431): the partner `src` lost its link `lost`, on which it had accepted SEQ `lastSeq` last. -/
def execFailover (k : Fin 64) (src : Byte) (lost : Fin 64) (lastSeq : Byte) (s : State) : Out :=
  .next (s.live fun s => s.ctrlRow k.val 0x32 src.toNat (lost.val + 256 * lastSeq.toNat) 0 0)

/-- PACKET_FORWARD (R428): a packet for another chip. -/
def execPacketForward (k : Fin 64) (p : Packet) (s : State) : Out :=
  .next (s.live fun s => if p.dst.toNat = s.chipId then s else s.rowPacket k.val p)

/-- WINDOW_OPEN (R437): WIN_CTRL of window w written with EN 1. -/
def execWindowOpen (a : Agent) (w : BitVec 8) (v : Word) (s : State) : Out :=
  .next (s.live fun s => s.agentWrite a (Reg.YFAB_WIN w.toNat 0xC) (fixBits v [0] []))

/-- WINDOW_CLOSE (R438): WIN_CTRL of window w written with EN 0. -/
def execWindowClose (a : Agent) (w : BitVec 8) (v : Word) (s : State) : Out :=
  .next (s.live fun s => s.agentWrite a (Reg.YFAB_WIN w.toNat 0xC) (fixBits v [] [0]))

/-- CLOSE_NOTE (R438): chip `src` closes window w over `len + 1` words from `base`. -/
def execCloseNote (k : Fin 64) (src : Byte) (w : BitVec 8) (base : BitVec 40) (len : BitVec 15) (s : State) : Out :=
  .next (s.live fun s => s.ctrlRow k.val 0x33 src.toNat w.toNat base.toNat len.toNat)

/-- DRAINED (R438): the answer of chip `src` for window w. -/
def execDrained (k : Fin 64) (src : Byte) (w : BitVec 8) (s : State) : Out :=
  .next (s.live fun s => s.ctrlRow k.val 0x34 src.toNat w.toNat 0 0)

/-- WINDOW_CLOSE_TIMEOUT (R438). -/
def execWindowCloseTimeout (w : BitVec 8) (s : State) : Out :=
  .next (s.live fun s => s.winTimeout w.toNat)

/-- LINK_SLEEP (R433): YARDER_CTRL written with EN 1 and SLEEP 1. -/
def execLinkSleep (a : Agent) (k : Fin 64) (v : Word) (s : State) : Out :=
  .next (s.live fun s => s.agentWrite a (Reg.YARDER k.val Reg.YARDER_CTRL) (fixBits v [0, 2] [3, 4]))

/-- RETRAIN (R447): YARDER_CTRL written with EN 1 and RETRAIN 1. -/
def execRetrain (a : Agent) (k : Fin 64) (v : Word) (s : State) : Out :=
  .next (s.live fun s => s.agentWrite a (Reg.YARDER k.val Reg.YARDER_CTRL) (fixBits v [0, 3] [4]))

/-- LINK_CNT_CLR (R444): YARDER_CTRL written with CNT_CLR 1 and RETRAIN 0. -/
def execLinkCntClr (a : Agent) (k : Fin 64) (v : Word) (s : State) : Out :=
  .next (s.live fun s => s.agentWrite a (Reg.YARDER k.val Reg.YARDER_CTRL) (fixBits v [4] [3]))

end Sys2Proof.Machine
end

