-- ==== Sys2Proof/Machine/Dispatch.lean ====
section
/-! DEFINITION. One arm per command. -/

namespace Sys2Proof.Machine
open Sys2Proof

def exec (i : Instr) (s : State) : Host.Outcome State Fault Refusal :=
  match i with
  | .registerWrite a off v => Sys2Proof.Machine.execRegisterWrite a off v s
  | .counterLowRead a off => Sys2Proof.Machine.execCounterLowRead a off s
  | .aliasWrite a off bit v => Sys2Proof.Machine.execAliasWrite a off bit v s
  | .voteSweep hits => Sys2Proof.Machine.execVoteSweep hits s
  | .voteClr a => Sys2Proof.Machine.execVoteClr a s
  | .sweepNow a => Sys2Proof.Machine.execSweepNow a s
  | .envelopeReading t0 t1 fans peers => Sys2Proof.Machine.execEnvelopeReading t0 t1 fans peers s
  | .inletSensorInvalid idx => Sys2Proof.Machine.execInletSensorInvalid idx s
  | .trayInsert straps tag => Sys2Proof.Machine.execTrayInsert straps tag s
  | .trayWithdraw => Sys2Proof.Machine.execTrayWithdraw s
  | .taskGo a n v => Sys2Proof.Machine.execTaskGo a n v s
  | .taskResume a n v => Sys2Proof.Machine.execTaskResume a n v s
  | .taskStop a n v => Sys2Proof.Machine.execTaskStop a n v s
  | .taskDrainComplete n => Sys2Proof.Machine.execTaskDrainComplete n s
  | .deferredExceptionReport c code engine unit tval => Sys2Proof.Machine.execDeferredExceptionReport c code engine unit tval s
  | .loadResponse c => Sys2Proof.Machine.execLoadResponse c s
  | .illegalInstruction c w => Sys2Proof.Machine.execIllegalInstruction c w s
  | .add c rd rs1 rs2 => Sys2Proof.Machine.execAdd c rd rs1 rs2 s
  | .sub c rd rs1 rs2 => Sys2Proof.Machine.execSub c rd rs1 rs2 s
  | .and c rd rs1 rs2 => Sys2Proof.Machine.execAnd c rd rs1 rs2 s
  | .or c rd rs1 rs2 => Sys2Proof.Machine.execOr c rd rs1 rs2 s
  | .xor c rd rs1 rs2 => Sys2Proof.Machine.execXor c rd rs1 rs2 s
  | .sll c rd rs1 rs2 => Sys2Proof.Machine.execSll c rd rs1 rs2 s
  | .srl c rd rs1 rs2 => Sys2Proof.Machine.execSrl c rd rs1 rs2 s
  | .sra c rd rs1 rs2 => Sys2Proof.Machine.execSra c rd rs1 rs2 s
  | .slt c rd rs1 rs2 => Sys2Proof.Machine.execSlt c rd rs1 rs2 s
  | .sltu c rd rs1 rs2 => Sys2Proof.Machine.execSltu c rd rs1 rs2 s
  | .seq c rd rs1 rs2 => Sys2Proof.Machine.execSeq c rd rs1 rs2 s
  | .min c rd rs1 rs2 => Sys2Proof.Machine.execMin c rd rs1 rs2 s
  | .max c rd rs1 rs2 => Sys2Proof.Machine.execMax c rd rs1 rs2 s
  | .minu c rd rs1 rs2 => Sys2Proof.Machine.execMinu c rd rs1 rs2 s
  | .maxu c rd rs1 rs2 => Sys2Proof.Machine.execMaxu c rd rs1 rs2 s
  | .mul c rd rs1 rs2 => Sys2Proof.Machine.execMul c rd rs1 rs2 s
  | .mulh c rd rs1 rs2 => Sys2Proof.Machine.execMulh c rd rs1 rs2 s
  | .mulhu c rd rs1 rs2 => Sys2Proof.Machine.execMulhu c rd rs1 rs2 s
  | .div c rd rs1 rs2 => Sys2Proof.Machine.execDiv c rd rs1 rs2 s
  | .divu c rd rs1 rs2 => Sys2Proof.Machine.execDivu c rd rs1 rs2 s
  | .rem c rd rs1 rs2 => Sys2Proof.Machine.execRem c rd rs1 rs2 s
  | .remu c rd rs1 rs2 => Sys2Proof.Machine.execRemu c rd rs1 rs2 s
  | .addi c rd rs1 imm => Sys2Proof.Machine.execAddi c rd rs1 imm s
  | .andi c rd rs1 imm => Sys2Proof.Machine.execAndi c rd rs1 imm s
  | .ori c rd rs1 imm => Sys2Proof.Machine.execOri c rd rs1 imm s
  | .xori c rd rs1 imm => Sys2Proof.Machine.execXori c rd rs1 imm s
  | .slli c rd rs1 sh => Sys2Proof.Machine.execSlli c rd rs1 sh s
  | .srli c rd rs1 sh => Sys2Proof.Machine.execSrli c rd rs1 sh s
  | .srai c rd rs1 sh => Sys2Proof.Machine.execSrai c rd rs1 sh s
  | .slti c rd rs1 imm => Sys2Proof.Machine.execSlti c rd rs1 imm s
  | .sltiu c rd rs1 imm => Sys2Proof.Machine.execSltiu c rd rs1 imm s
  | .ldhi c rd imm => Sys2Proof.Machine.execLdhi c rd imm s
  | .addpch c rd imm => Sys2Proof.Machine.execAddpch c rd imm s
  | .lb c rd rs1 imm => Sys2Proof.Machine.execLb c rd rs1 imm s
  | .lh c rd rs1 imm => Sys2Proof.Machine.execLh c rd rs1 imm s
  | .lw c rd rs1 imm => Sys2Proof.Machine.execLw c rd rs1 imm s
  | .ld c rd rs1 imm => Sys2Proof.Machine.execLd c rd rs1 imm s
  | .lbu c rd rs1 imm => Sys2Proof.Machine.execLbu c rd rs1 imm s
  | .lhu c rd rs1 imm => Sys2Proof.Machine.execLhu c rd rs1 imm s
  | .lwu c rd rs1 imm => Sys2Proof.Machine.execLwu c rd rs1 imm s
  | .sb c rs1 rs2 imm => Sys2Proof.Machine.execSb c rs1 rs2 imm s
  | .sh c rs1 rs2 imm => Sys2Proof.Machine.execSh c rs1 rs2 imm s
  | .sw c rs1 rs2 imm => Sys2Proof.Machine.execSw c rs1 rs2 imm s
  | .sd c rs1 rs2 imm => Sys2Proof.Machine.execSd c rs1 rs2 imm s
  | .vld c vd rs1 msk imm => Sys2Proof.Machine.execVld c vd rs1 msk imm s
  | .vst c rs1 vs2 msk imm => Sys2Proof.Machine.execVst c rs1 vs2 msk imm s
  | .beq c rs1 rs2 imm => Sys2Proof.Machine.execBeq c rs1 rs2 imm s
  | .bne c rs1 rs2 imm => Sys2Proof.Machine.execBne c rs1 rs2 imm s
  | .blt c rs1 rs2 imm => Sys2Proof.Machine.execBlt c rs1 rs2 imm s
  | .bge c rs1 rs2 imm => Sys2Proof.Machine.execBge c rs1 rs2 imm s
  | .bltu c rs1 rs2 imm => Sys2Proof.Machine.execBltu c rs1 rs2 imm s
  | .bgeu c rs1 rs2 imm => Sys2Proof.Machine.execBgeu c rs1 rs2 imm s
  | .jl c rd imm => Sys2Proof.Machine.execJl c rd imm s
  | .jlr c rd rs1 imm => Sys2Proof.Machine.execJlr c rd rs1 imm s
  | .mfsr c rd sr => Sys2Proof.Machine.execMfsr c rd sr s
  | .mtsr c sr rs1 => Sys2Proof.Machine.execMtsr c sr rs1 s
  | .eret c => Sys2Proof.Machine.execEret c s
  | .halt c imm => Sys2Proof.Machine.execHalt c imm s
  | .trap c imm => Sys2Proof.Machine.execTrap c imm s
  | .brk c imm => Sys2Proof.Machine.execBrk c imm s
  | .iflush c => Sys2Proof.Machine.execIflush c s
  | .vadd c ty vd vs1 vs2 msk => Sys2Proof.Machine.execVadd c ty vd vs1 vs2 msk s
  | .vsub c ty vd vs1 vs2 msk => Sys2Proof.Machine.execVsub c ty vd vs1 vs2 msk s
  | .vmul c ty vd vs1 vs2 msk => Sys2Proof.Machine.execVmul c ty vd vs1 vs2 msk s
  | .vfma c ty vd vs1 vs2 msk => Sys2Proof.Machine.execVfma c ty vd vs1 vs2 msk s
  | .vfms c ty vd vs1 vs2 msk => Sys2Proof.Machine.execVfms c ty vd vs1 vs2 msk s
  | .vmax c ty vd vs1 vs2 msk => Sys2Proof.Machine.execVmax c ty vd vs1 vs2 msk s
  | .vmin c ty vd vs1 vs2 msk => Sys2Proof.Machine.execVmin c ty vd vs1 vs2 msk s
  | .vabs c ty vd vs1 msk => Sys2Proof.Machine.execVabs c ty vd vs1 msk s
  | .vneg c ty vd vs1 msk => Sys2Proof.Machine.execVneg c ty vd vs1 msk s
  | .vexp2 c ty vd vs1 msk => Sys2Proof.Machine.execVexp2 c ty vd vs1 msk s
  | .vlog2 c ty vd vs1 msk => Sys2Proof.Machine.execVlog2 c ty vd vs1 msk s
  | .vrcp c ty vd vs1 msk => Sys2Proof.Machine.execVrcp c ty vd vs1 msk s
  | .vrsq c ty vd vs1 msk => Sys2Proof.Machine.execVrsq c ty vd vs1 msk s
  | .vand c ty vd vs1 vs2 msk => Sys2Proof.Machine.execVand c ty vd vs1 vs2 msk s
  | .vor c ty vd vs1 vs2 msk => Sys2Proof.Machine.execVor c ty vd vs1 vs2 msk s
  | .vxor c ty vd vs1 vs2 msk => Sys2Proof.Machine.execVxor c ty vd vs1 vs2 msk s
  | .vsll c ty vd vs1 vs2 msk => Sys2Proof.Machine.execVsll c ty vd vs1 vs2 msk s
  | .vsrl c ty vd vs1 vs2 msk => Sys2Proof.Machine.execVsrl c ty vd vs1 vs2 msk s
  | .vsra c ty vd vs1 vs2 msk => Sys2Proof.Machine.execVsra c ty vd vs1 vs2 msk s
  | .vceq c ty md vs1 vs2 msk => Sys2Proof.Machine.execVceq c ty md vs1 vs2 msk s
  | .vclt c ty md vs1 vs2 msk => Sys2Proof.Machine.execVclt c ty md vs1 vs2 msk s
  | .vcle c ty md vs1 vs2 msk => Sys2Proof.Machine.execVcle c ty md vs1 vs2 msk s
  | .vcvt c kind vd vs1 msk => Sys2Proof.Machine.execVcvt c kind vd vs1 msk s
  | .vredsum c ty vd vs1 msk => Sys2Proof.Machine.execVredsum c ty vd vs1 msk s
  | .vredmax c ty vd vs1 msk => Sys2Proof.Machine.execVredmax c ty vd vs1 msk s
  | .vredmin c ty vd vs1 msk => Sys2Proof.Machine.execVredmin c ty vd vs1 msk s
  | .vperm c vd vs1 vs2 msk => Sys2Proof.Machine.execVperm c vd vs1 vs2 msk s
  | .vrot c vd vs1 rs2 msk => Sys2Proof.Machine.execVrot c vd vs1 rs2 msk s
  | .vbcast c vd rs1 msk => Sys2Proof.Machine.execVbcast c vd rs1 msk s
  | .vext c rd vs1 rs2 => Sys2Proof.Machine.execVext c rd vs1 rs2 s
  | .vins c vd rs1 rs2 => Sys2Proof.Machine.execVins c vd rs1 rs2 s
  | .vmov c vd vs1 msk => Sys2Proof.Machine.execVmov c vd vs1 msk s
  | .vsel c vd vs1 vs2 msk => Sys2Proof.Machine.execVsel c vd vs1 vs2 msk s
  | .viota c vd msk => Sys2Proof.Machine.execViota c vd msk s
  | .mand c md m1 m2 => Sys2Proof.Machine.execMand c md m1 m2 s
  | .mor c md m1 m2 => Sys2Proof.Machine.execMor c md m1 m2 s
  | .mxor c md m1 m2 => Sys2Proof.Machine.execMxor c md m1 m2 s
  | .mandn c md m1 m2 => Sys2Proof.Machine.execMandn c md m1 m2 s
  | .mfm c rd m1 => Sys2Proof.Machine.execMfm c rd m1 s
  | .mtm c md rs1 => Sys2Proof.Machine.execMtm c md rs1 s
  | .mload c rs1 => Sys2Proof.Machine.execMload c rs1 s
  | .mrun c rs1 => Sys2Proof.Machine.execMrun c rs1 s
  | .mscrub c rs1 => Sys2Proof.Machine.execMscrub c rs1 s
  | .accOpen c rs1 => Sys2Proof.Machine.execAccOpen c rs1 s
  | .accClose c rs1 => Sys2Proof.Machine.execAccClose c rs1 s
  | .accFlush c rs1 => Sys2Proof.Machine.execAccFlush c rs1 s
  | .accStat c rs1 => Sys2Proof.Machine.execAccStat c rs1 s
  | .accPeek c rd rs1 rs2 => Sys2Proof.Machine.execAccPeek c rd rs1 rs2 s
  | .qout c rs1 => Sys2Proof.Machine.execQout c rs1 s
  | .spFill c rd rs1 rs2 => Sys2Proof.Machine.execSpFill c rd rs1 rs2 s
  | .spCopy c rd rs1 rs2 mode => Sys2Proof.Machine.execSpCopy c rd rs1 rs2 mode s
  | .spOperationEnd n => Sys2Proof.Machine.execSpOperationEnd n s
  | .feWrite c scalar rs1 rs2 => Sys2Proof.Machine.execFeWrite c scalar rs1 rs2 s
  | .feRead c scalar rd rs1 => Sys2Proof.Machine.execFeRead c scalar rd rs1 s
  | .fePeek c scalar rd rs1 rs2 => Sys2Proof.Machine.execFePeek c scalar rd rs1 rs2 s
  | .feSet c rs1 rs2 => Sys2Proof.Machine.execFeSet c rs1 rs2 s
  | .feClear c rs1 rs2 => Sys2Proof.Machine.execFeClear c rs1 rs2 s
  | .feRetry n queue => Sys2Proof.Machine.execFeRetry n queue s
  | .feTimeout n => Sys2Proof.Machine.execFeTimeout n s
  | .dmaPost c rd rs1 q => Sys2Proof.Machine.execDmaPost c rd rs1 q s
  | .dmaWait c rs1 q => Sys2Proof.Machine.execDmaWait c rs1 q s
  | .bar c b => Sys2Proof.Machine.execBar c b s
  | .waitev c rd rs1 all => Sys2Proof.Machine.execWaitev c rd rs1 all s
  | .yield c k => Sys2Proof.Machine.execYield c k s
  | .yieldEnd c => Sys2Proof.Machine.execYieldEnd c s
  | .phase c k => Sys2Proof.Machine.execPhase c k s
  | .waitTimeout n => Sys2Proof.Machine.execWaitTimeout n s
  | .passComplete n m first rerun => Sys2Proof.Machine.execPassComplete n m first rerun s
  | .mloadDone n target => Sys2Proof.Machine.execMloadDone n target s
  | .accCloseEnd n => Sys2Proof.Machine.execAccCloseEnd n s
  | .qoutEnd n => Sys2Proof.Machine.execQoutEnd n s
  | .debugWindowRead tag => Sys2Proof.Machine.execDebugWindowRead tag s
  | .debugWindowWrite tag => Sys2Proof.Machine.execDebugWindowWrite tag s
  | .spRemoteAccess tag => Sys2Proof.Machine.execSpRemoteAccess tag s
  | .gbIdleWriteback n entry => Sys2Proof.Machine.execGbIdleWriteback n entry s
  | .ownerHandover a n v => Sys2Proof.Machine.execOwnerHandover a n v s
  | .handoverComplete n => Sys2Proof.Machine.execHandoverComplete n s
  | .stripeWrite a n idx v => Sys2Proof.Machine.execStripeWrite a n idx v s
  | .cacheWb a n => Sys2Proof.Machine.execCacheWb a n s
  | .cacheInv a n => Sys2Proof.Machine.execCacheInv a n s
  | .cacheMaintEnd n => Sys2Proof.Machine.execCacheMaintEnd n s
  | .spScrubWord n hits => Sys2Proof.Machine.execSpScrubWord n hits s
  | .spInitComplete n => Sys2Proof.Machine.execSpInitComplete n s
  | .eventBitSet a n hi v => Sys2Proof.Machine.execEventBitSet a n hi v s
  | .eventBitClear a n hi v => Sys2Proof.Machine.execEventBitClear a n hi v s
  | .dbgRegWrite a n hi v => Sys2Proof.Machine.execDbgRegWrite a n hi v s
  | .hbmRequest tag => Sys2Proof.Machine.execHbmRequest tag s
  | .patrolRead idx hits => Sys2Proof.Machine.execPatrolRead idx hits s
  | .refresh idx pc => Sys2Proof.Machine.execRefresh idx pc s
  | .hbmTempRead idx t => Sys2Proof.Machine.execHbmTempRead idx t s
  | .selfRefreshEntry a idx v => Sys2Proof.Machine.execSelfRefreshEntry a idx v s
  | .selfRefreshExit a idx v => Sys2Proof.Machine.execSelfRefreshExit a idx v s
  | .srSequenceComplete idx recheckOk failPc => Sys2Proof.Machine.execSrSequenceComplete idx recheckOk failPc s
  | .ceClr a idx v => Sys2Proof.Machine.execCeClr a idx v s
  | .ueClr a idx v => Sys2Proof.Machine.execUeClr a idx v s
  | .hbmCeHour idx => Sys2Proof.Machine.execHbmCeHour idx s
  | .hbmBringup idx id rfm => Sys2Proof.Machine.execHbmBringup idx id rfm s
  | .hbmTrainingDone idx rate failPc => Sys2Proof.Machine.execHbmTrainingDone idx rate failPc s
  | .hbmInitDone idx => Sys2Proof.Machine.execHbmInitDone idx s
  | .meshPacketRoute tag parityError => Sys2Proof.Machine.execMeshPacketRoute tag parityError s
  | .dmaDescriptorStart n q => Sys2Proof.Machine.execDmaDescriptorStart n q s
  | .dmaDescriptorComplete n q => Sys2Proof.Machine.execDmaDescriptorComplete n q s
  | .dmaTimeout n q => Sys2Proof.Machine.execDmaTimeout n q s
  | .skqRestart a n mask => Sys2Proof.Machine.execSkqRestart a n mask s
  | .skqSkip a n mask => Sys2Proof.Machine.execSkqSkip a n mask s
  | .chokerResponse tag => Sys2Proof.Machine.execChokerResponse tag s
  | .tagExpiry tag => Sys2Proof.Machine.execTagExpiry tag s
  | .quotaWrite a n v => Sys2Proof.Machine.execQuotaWrite a n v s
  | .flitReceive k fec bytes => Sys2Proof.Machine.execFlitReceive k fec bytes s
  | .rd k p => Sys2Proof.Machine.execRd k p s
  | .wr k p => Sys2Proof.Machine.execWr k p s
  | .feRd k p => Sys2Proof.Machine.execFeRd k p s
  | .feWr k p => Sys2Proof.Machine.execFeWr k p s
  | .yarderFePeek k p => Sys2Proof.Machine.execYarderFePeek k p s
  | .yarderFeSet k p => Sys2Proof.Machine.execYarderFeSet k p s
  | .feClr k p => Sys2Proof.Machine.execFeClr k p s
  | .rdRsp k p => Sys2Proof.Machine.execRdRsp k p s
  | .wrAck k p => Sys2Proof.Machine.execWrAck k p s
  | .feRsp k p => Sys2Proof.Machine.execFeRsp k p s
  | .wrBulk k p => Sys2Proof.Machine.execWrBulk k p s
  | .bulkAck k p => Sys2Proof.Machine.execBulkAck k p s
  | .trainingComplete k ok settings => Sys2Proof.Machine.execTrainingComplete k ok settings s
  | .hello k h => Sys2Proof.Machine.execHello k h s
  | .helloAck k h => Sys2Proof.Machine.execHelloAck k h s
  | .linkLost k codeword => Sys2Proof.Machine.execLinkLost k codeword s
  | .failover k src lost lastSeq => Sys2Proof.Machine.execFailover k src lost lastSeq s
  | .packetForward k p => Sys2Proof.Machine.execPacketForward k p s
  | .windowOpen a w v => Sys2Proof.Machine.execWindowOpen a w v s
  | .windowClose a w v => Sys2Proof.Machine.execWindowClose a w v s
  | .closeNote k src w base len => Sys2Proof.Machine.execCloseNote k src w base len s
  | .drained k src w => Sys2Proof.Machine.execDrained k src w s
  | .windowCloseTimeout w => Sys2Proof.Machine.execWindowCloseTimeout w s
  | .linkSleep a k v => Sys2Proof.Machine.execLinkSleep a k v s
  | .retrain a k v => Sys2Proof.Machine.execRetrain a k v s
  | .linkCntClr a k v => Sys2Proof.Machine.execLinkCntClr a k v s
  | .gvspLeader k frame => Sys2Proof.Machine.execGvspLeader k frame s
  | .gvspPayload k frame => Sys2Proof.Machine.execGvspPayload k frame s
  | .gvspTrailer k frame => Sys2Proof.Machine.execGvspTrailer k frame s
  | .rxRingFrame k frame => Sys2Proof.Machine.execRxRingFrame k frame s
  | .frameTimeout n => Sys2Proof.Machine.execFrameTimeout n s
  | .tokenDelivery n => Sys2Proof.Machine.execTokenDelivery n s
  | .streamRelease a n v => Sys2Proof.Machine.execStreamRelease a n v s
  | .streamEnable a n v => Sys2Proof.Machine.execStreamEnable a n v s
  | .streamLost n fault => Sys2Proof.Machine.execStreamLost n fault s
  | .txFrameSend k => Sys2Proof.Machine.execTxFrameSend k s
  | .macLinkChange k speed => Sys2Proof.Machine.execMacLinkChange k speed s
  | .timeStep a v => Sys2Proof.Machine.execTimeStep a v s
  | .odoPreset a v => Sys2Proof.Machine.execOdoPreset a v s
  | .odoEdge chA chB => Sys2Proof.Machine.execOdoEdge chA chB s
  | .findingsPoll peers => Sys2Proof.Machine.execFindingsPoll peers s
  | .findingsDatagram => Sys2Proof.Machine.execFindingsDatagram s
  | .portTableRefresh others => Sys2Proof.Machine.execPortTableRefresh others s
  | .taskFaultNotice n => Sys2Proof.Machine.execTaskFaultNotice n s
  | .serviceRestart => Sys2Proof.Machine.execServiceRestart s
  | .serviceDrainEnd limit => Sys2Proof.Machine.execServiceDrainEnd limit s
  | .ttcpHello q => Sys2Proof.Machine.execTtcpHello q s
  | .status q => Sys2Proof.Machine.execStatus q s
  | .ports q => Sys2Proof.Machine.execPorts q s
  | .regRead q => Sys2Proof.Machine.execRegRead q s
  | .regWrite q => Sys2Proof.Machine.execRegWrite q s
  | .tally q => Sys2Proof.Machine.execTally q s
  | .netSet q => Sys2Proof.Machine.execNetSet q s
  | .start q answers => Sys2Proof.Machine.execStart q answers s
  | .stop q => Sys2Proof.Machine.execStop q s
  | .quiesce q => Sys2Proof.Machine.execQuiesce q s
  | .resume q => Sys2Proof.Machine.execResume q s
  | .findDest q => Sys2Proof.Machine.execFindDest q s
  | .findReplay q => Sys2Proof.Machine.execFindReplay q s
  | .updBegin q => Sys2Proof.Machine.execUpdBegin q s
  | .updData q ok => Sys2Proof.Machine.execUpdData q ok s
  | .updCommit q ok => Sys2Proof.Machine.execUpdCommit q ok s
  | .budget q => Sys2Proof.Machine.execBudget q s
  | .ptpRole q => Sys2Proof.Machine.execPtpRole q s
  | .ident q => Sys2Proof.Machine.execIdent q s
  | .retain q => Sys2Proof.Machine.execRetain q s
  | .reset q => Sys2Proof.Machine.execReset q s
  | .consoleStatus ready => Sys2Proof.Machine.execConsoleStatus ready s
  | .consolePorts p => Sys2Proof.Machine.execConsolePorts p s
  | .consoleTally n => Sys2Proof.Machine.execConsoleTally n s
  | .consoleRr chip off count ready => Sys2Proof.Machine.execConsoleRr chip off count ready s
  | .consoleRw chip off v ready => Sys2Proof.Machine.execConsoleRw chip off v ready s
  | .consoleStart base answers => Sys2Proof.Machine.execConsoleStart base answers s
  | .consoleStop => Sys2Proof.Machine.execConsoleStop s
  | .consoleQuiesce => Sys2Proof.Machine.execConsoleQuiesce s
  | .consoleResume => Sys2Proof.Machine.execConsoleResume s
  | .consoleNet idx addr mask gw => Sys2Proof.Machine.execConsoleNet idx addr mask gw s
  | .consoleDest addr port => Sys2Proof.Machine.execConsoleDest addr port s
  | .consolePtp role => Sys2Proof.Machine.execConsolePtp role s
  | .consoleIdent on => Sys2Proof.Machine.execConsoleIdent on s
  | .consoleReset => Sys2Proof.Machine.execConsoleReset s
  | .consolePoweroff => Sys2Proof.Machine.execConsolePoweroff s
  | .consoleRetain => Sys2Proof.Machine.execConsoleRetain s
  | .recoveryBegin seq payload crc => Sys2Proof.Machine.execRecoveryBegin seq payload crc s
  | .recoveryData seq payload crc ok => Sys2Proof.Machine.execRecoveryData seq payload crc ok s
  | .recoveryCommit seq payload crc ok => Sys2Proof.Machine.execRecoveryCommit seq payload crc ok s
  | .recoveryReboot seq payload crc => Sys2Proof.Machine.execRecoveryReboot seq payload crc s
  | .recoveryAnnounce => Sys2Proof.Machine.execRecoveryAnnounce s
  | .recoveryBlockTimeout => Sys2Proof.Machine.execRecoveryBlockTimeout s
  | .estimatorPeriod counts => Sys2Proof.Machine.execEstimatorPeriod counts s
  | .calibration ms => Sys2Proof.Machine.execCalibration ms s
  | .measMissing d rail => Sys2Proof.Machine.execMeasMissing d rail s
  | .capLoopIteration => Sys2Proof.Machine.execCapLoopIteration s
  | .railSettled q => Sys2Proof.Machine.execRailSettled q s
  | .fixedAck a v => Sys2Proof.Machine.execFixedAck a v s
  | .opEntryWrite a k v => Sys2Proof.Machine.execOpEntryWrite a k v s
  | .capFloorWrite a floor v => Sys2Proof.Machine.execCapFloorWrite a floor v s
  | .prioWrite a v => Sys2Proof.Machine.execPrioWrite a v s
  | .tileGate n => Sys2Proof.Machine.execTileGate n s
  | .tileWake a idx v => Sys2Proof.Machine.execTileWake a idx v s
  | .tileWakeComplete n => Sys2Proof.Machine.execTileWakeComplete n s
  | .quadrantRequest a q v => Sys2Proof.Machine.execQuadrantRequest a q v s
  | .quadrantEntryComplete q => Sys2Proof.Machine.execQuadrantEntryComplete q s
  | .quadrantWakeComplete q => Sys2Proof.Machine.execQuadrantWakeComplete q s
  | .waitPeriodEnd => Sys2Proof.Machine.execWaitPeriodEnd s
  | .droopDetect q => Sys2Proof.Machine.execDroopDetect q s
  | .sensorConversion ts => Sys2Proof.Machine.execSensorConversion ts s
  | .sensorInvalid idx => Sys2Proof.Machine.execSensorInvalid idx s
  | .thermalTrip idx => Sys2Proof.Machine.execThermalTrip idx s
  | .tripClear a v => Sys2Proof.Machine.execTripClear a v s
  | .report k p => Sys2Proof.Machine.execReport k p s
  | .grant k p bus => Sys2Proof.Machine.execGrant k p bus s
  | .grantAck k p => Sys2Proof.Machine.execGrantAck k p s
  | .cruiserCycle => Sys2Proof.Machine.execCruiserCycle s
  | .decreaseTimeout c => Sys2Proof.Machine.execDecreaseTimeout c s
  | .envelopeMissing tray => Sys2Proof.Machine.execEnvelopeMissing tray s
  | .poeGrantRequest c cls granted => Sys2Proof.Machine.execPoeGrantRequest c cls granted s
  | .poeBudgetWrite a v => Sys2Proof.Machine.execPoeBudgetWrite a v s
  | .poeOverload input => Sys2Proof.Machine.execPoeOverload input s
  | .regulatorAlert => Sys2Proof.Machine.execRegulatorAlert s
  | .alertRelease => Sys2Proof.Machine.execAlertRelease s
  | .alertAck a v => Sys2Proof.Machine.execAlertAck a v s
  | .sscApply pll => Sys2Proof.Machine.execSscApply pll s
  | .powerOnReset straps tag => Sys2Proof.Machine.execPowerOnReset straps tag s
  | .trayReset cause tag => Sys2Proof.Machine.execTrayReset cause tag s
  | .bootStepTimeout step => Sys2Proof.Machine.execBootStepTimeout step s
  | .watchdogArm a v => Sys2Proof.Machine.execWatchdogArm a v s
  | .wdogKick a v => Sys2Proof.Machine.execWdogKick a v s
  | .watchdogExpiry => Sys2Proof.Machine.execWatchdogExpiry s
  | .swdogKick a v => Sys2Proof.Machine.execSwdogKick a v s
  | .scalerWatchdogExpiry => Sys2Proof.Machine.execScalerWatchdogExpiry s
  | .referenceCheck khz => Sys2Proof.Machine.execReferenceCheck khz s
  | .referenceReturn => Sys2Proof.Machine.execReferenceReturn s
  | .pllLockLoss pll => Sys2Proof.Machine.execPllLockLoss pll s
  | .softReset a v => Sys2Proof.Machine.execSoftReset a v s
  | .tileReset a idx v => Sys2Proof.Machine.execTileReset a idx v s
  | .retentionWake src => Sys2Proof.Machine.execRetentionWake src s
  | .inputLoss decivolts => Sys2Proof.Machine.execInputLoss decivolts s
  | .rideThrough => Sys2Proof.Machine.execRideThrough s
  | .inputLossTimeout => Sys2Proof.Machine.execInputLossTimeout s
  | .railFailure rail stack => Sys2Proof.Machine.execRailFailure rail stack s
  | .nqRead a k => Sys2Proof.Machine.execNqRead a k s
  | .rqRead a => Sys2Proof.Machine.execRqRead a s
  | .restoreGo a v => Sys2Proof.Machine.execRestoreGo a v s
  | .restoreDone => Sys2Proof.Machine.execRestoreDone s
  | .restoreTimeout n m rg => Sys2Proof.Machine.execRestoreTimeout n m rg s
  | .macroScrubRow n hits => Sys2Proof.Machine.execMacroScrubRow n hits s
  | .logRead a rewritten => Sys2Proof.Machine.execLogRead a rewritten s
  | .logOverflowSecond => Sys2Proof.Machine.execLogOverflowSecond s
  | .integCntClr a v => Sys2Proof.Machine.execIntegCntClr a v s
  | .repairMapWrite a v => Sys2Proof.Machine.execRepairMapWrite a v s
  | .repairLock a v => Sys2Proof.Machine.execRepairLock a v s
  | .opsecWrite => Sys2Proof.Machine.execOpsecWrite s
  | .eventRaise code src detail => Sys2Proof.Machine.execEventRaise code src detail s
  | .tallyRaise a v => Sys2Proof.Machine.execTallyRaise a v s
  | .tallyClear a v => Sys2Proof.Machine.execTallyClear a v s
  | .tallyFreeze a v => Sys2Proof.Machine.execTallyFreeze a v s
  | .detectionCycle k sig granted => Sys2Proof.Machine.execDetectionCycle k sig granted s
  | .phyLinkUp k speed partner lengths => Sys2Proof.Machine.execPhyLinkUp k speed partner lengths s
  | .phyLinkDown k => Sys2Proof.Machine.execPhyLinkDown k s
  | .cableTdrTimer k => Sys2Proof.Machine.execCableTdrTimer k s
  | .cableTest a k v lengths => Sys2Proof.Machine.execCableTest a k v lengths s
  | .currentSample k ma mps => Sys2Proof.Machine.execCurrentSample k ma mps s
  | .portEnableWrite a k v => Sys2Proof.Machine.execPortEnableWrite a k v s
  | .vinSample vin iin => Sys2Proof.Machine.execVinSample vin iin s
  | .buttonPress b => Sys2Proof.Machine.execButtonPress b s
  | .buttonHold b => Sys2Proof.Machine.execButtonHold b s
  | .buttonRelease b ms => Sys2Proof.Machine.execButtonRelease b ms s
  | .buttonStuck b => Sys2Proof.Machine.execButtonStuck b s
  | .inventory h len mask => Sys2Proof.Machine.execInventory h len mask s
  | .stayQuiet h => Sys2Proof.Machine.execStayQuiet h s
  | .readSingleBlock h b => Sys2Proof.Machine.execReadSingleBlock h b s
  | .extendedReadSingleBlock h b => Sys2Proof.Machine.execExtendedReadSingleBlock h b s
  | .writeSingleBlock h b d => Sys2Proof.Machine.execWriteSingleBlock h b d s
  | .extendedWriteSingleBlock h b d => Sys2Proof.Machine.execExtendedWriteSingleBlock h b d s
  | .lockBlock h b => Sys2Proof.Machine.execLockBlock h b s
  | .extendedLockBlock h b => Sys2Proof.Machine.execExtendedLockBlock h b s
  | .readMultipleBlocks h b k => Sys2Proof.Machine.execReadMultipleBlocks h b k s
  | .extendedReadMultipleBlocks h b k => Sys2Proof.Machine.execExtendedReadMultipleBlocks h b k s
  | .writeMultipleBlocks h b ds => Sys2Proof.Machine.execWriteMultipleBlocks h b ds s
  | .extendedWriteMultipleBlocks h b ds => Sys2Proof.Machine.execExtendedWriteMultipleBlocks h b ds s
  | .getSystemInformation h => Sys2Proof.Machine.execGetSystemInformation h s
  | .extendedGetSystemInformation h => Sys2Proof.Machine.execExtendedGetSystemInformation h s
  | .lockRecord h record session => Sys2Proof.Machine.execLockRecord h record session s
  | .releaseRecord h record session => Sys2Proof.Machine.execReleaseRecord h record session s
  | .readLocks h => Sys2Proof.Machine.execReadLocks h s
  | .fieldCollapse write => Sys2Proof.Machine.execFieldCollapse write s
  | .lockExpiry notes => Sys2Proof.Machine.execLockExpiry notes s
  | .blazeRead a v => Sys2Proof.Machine.execBlazeRead a v s
  | .blazeWrite a v => Sys2Proof.Machine.execBlazeWrite a v s
  | .blazeLockRecord a v => Sys2Proof.Machine.execBlazeLockRecord a v s
  | .blazeReleaseRecord a v => Sys2Proof.Machine.execBlazeReleaseRecord a v s
  | .blazeOpDone first again => Sys2Proof.Machine.execBlazeOpDone first again s
  | .serviceFlagPoll => Sys2Proof.Machine.execServiceFlagPoll s
  | .characterReceive k line => Sys2Proof.Machine.execCharacterReceive k line s
  | .glitch k => Sys2Proof.Machine.execGlitch k s
  | .breakReceive k => Sys2Proof.Machine.execBreakReceive k s
  | .idleLine k => Sys2Proof.Machine.execIdleLine k s
  | .rxRead a k => Sys2Proof.Machine.execRxRead a k s
  | .txWrite a k v => Sys2Proof.Machine.execTxWrite a k v s
  | .characterTransmit k => Sys2Proof.Machine.execCharacterTransmit k s
  | .sendBreak a k v => Sys2Proof.Machine.execSendBreak a k v s
  | .rxFlush a k v => Sys2Proof.Machine.execRxFlush a k v s
  | .txFlush a k v => Sys2Proof.Machine.execTxFlush a k v s
  | .funcHandover a idx v => Sys2Proof.Machine.execFuncHandover a idx v s
  | .handoverConnect idx => Sys2Proof.Machine.execHandoverConnect idx s
  | .gpioEdge idx level => Sys2Proof.Machine.execGpioEdge idx level s
  | .holdupLow decivolts => Sys2Proof.Machine.execHoldupLow decivolts s
  | .pllLocked q => Sys2Proof.Machine.execPllLocked q s
  | .droopEnd q stretched => Sys2Proof.Machine.execDroopEnd q stretched s
  | .breakEnd k sixteenths => Sys2Proof.Machine.execBreakEnd k sixteenths s
  | .breakLengthLimit k => Sys2Proof.Machine.execBreakLengthLimit k s
  | .accStatEnd n => Sys2Proof.Machine.execAccStatEnd n s
  | .mscrubEnd n => Sys2Proof.Machine.execMscrubEnd n s
  | .reflectometryTestEnd k faults dist => Sys2Proof.Machine.execReflectometryTestEnd k faults dist s

end Sys2Proof.Machine
end

