-- ==== Sys2Proof/Machine/Tick.lean ====
section
/-! DEFINITION. The tick of 40 ns that passes while no command waits (log 1). -/

namespace Sys2Proof.Machine
open Sys2Proof

/-- Do `f` for every tile, in order. -/
def State.eachTile (s : State) (f : Fin 144 → State → State) : State :=
  s.tiles.foldl (fun (s : State) p => if h : p.1 < 144 then f ⟨p.1, h⟩ s else s) s

/-- Every core's waiting WAITEV or DMA.WAIT is looked at again. -/
def State.pollAll (s : State) : State :=
  let s := s.eachTile fun n s => s.pollTile n
  [0, 1, 2, 3].foldl (fun (s : State) (k : Fin 4) => s.poll (.ranger k)) s

/-- The requests that time alone moves: those in the mesh leave for the links, the I/O hub serves its own, the Skidders take
as many cycles as their TCLK has, and what a full quota or a full cache kept back is asked for (R383, R390, R399). -/
def State.moveRequests (s : State) : State :=
  (s.leaveAll.hubAll.eachTile fun n s =>
    let s := if s.quadRuns n then State.skTurns n (s.tclkStep (quadOf n)) s else s
    (s.fillGo n).loadsGo n).restoreAsk.stageGo

/-- A link in HANDSHAKE or UP that has nothing to send sends an IDLE flit (R412): one in each tick (log 31). -/
def State.idleFlits (s : State) : State :=
  if s.life.refLost then s
  else s.links.foldl (fun (s : State) p =>
    if (s.lstate p.1 == lkUp || s.lstate p.1 == lkHandshake) && (s.sendable p.1 (s.link p.1).txq).isNone then
      s.sendIdle p.1 false 0 0 else s) s

/-- The clocks move on by 40 ns: 64 cycles of NCLK, 4 of PCLK, and each quadrant's TCLK. -/
def State.advance (s : State) : State :=
  let tclk := (List.range 4).foldl (fun (m : SMap Nat) q => m.set 0 q (m.get 0 q + s.tclkStep q)) s.tclk
  { s with nclk := s.nclk + 64, tclk := tclk }.runTime 4

/-- An idle tick (DESIGN CHOICE, log 1): time, the clocks, the wait and busy counts, breaks and events that time alone
releases, waits that may end, and the next step of a sequence of chapters 15 and 18. -/
def State.tick (s : State) : State :=
  let s := { s with now := s.now + 40 }
  if s.life.off then s else s.advance.apart fun s => s.moveRequests.idleFlits.countWait.uartTime.gpioTell.pollAll.actsGo.lifeTick

end Sys2Proof.Machine
end

