-- ==== Sys2Proof/Machine/Words.lean ====
section
/-! DEFINITION. The instruction words of Daxner (R134 to R139, R177): which command a core carries out for a word it
fetches.  Each group of Table 5-2 has its decoder; the fields are those of its format in Table 5-1. -/

namespace Sys2Proof.Machine
open Sys2Proof

/-- The w-bit field of a word that begins at bit `lo`. -/
def wordField (w : Word) (lo wd : Nat) : BitVec wd := w.extractLsb' lo wd

/-- ALU and MULDIV (Table 5-4): format A. -/
def decodeAlu (c : CoreId) (muldiv : Bool) (fn : Nat) (rd rs1 rs2 : BitVec 5) : Option Instr :=
  match muldiv, fn with
  | false, 0 => some (.add c rd rs1 rs2)
  | false, 1 => some (.sub c rd rs1 rs2)
  | false, 2 => some (.and c rd rs1 rs2)
  | false, 3 => some (.or c rd rs1 rs2)
  | false, 4 => some (.xor c rd rs1 rs2)
  | false, 5 => some (.sll c rd rs1 rs2)
  | false, 6 => some (.srl c rd rs1 rs2)
  | false, 7 => some (.sra c rd rs1 rs2)
  | false, 8 => some (.slt c rd rs1 rs2)
  | false, 9 => some (.sltu c rd rs1 rs2)
  | false, 10 => some (.seq c rd rs1 rs2)
  | false, 11 => some (.min c rd rs1 rs2)
  | false, 12 => some (.max c rd rs1 rs2)
  | false, 13 => some (.minu c rd rs1 rs2)
  | false, 14 => some (.maxu c rd rs1 rs2)
  | true, 0 => some (.mul c rd rs1 rs2)
  | true, 1 => some (.mulh c rd rs1 rs2)
  | true, 2 => some (.mulhu c rd rs1 rs2)
  | true, 4 => some (.div c rd rs1 rs2)
  | true, 5 => some (.divu c rd rs1 rs2)
  | true, 6 => some (.rem c rd rs1 rs2)
  | true, 7 => some (.remu c rd rs1 rs2)
  | _, _ => none

/-- ALUI (Table 5-6): format I.  A shift keeps imm[5:0]; imm[11:6] picks the right shift. -/
def decodeAlui (c : CoreId) (fn3 : Nat) (rd rs1 : BitVec 5) (imm : BitVec 12) : Option Instr :=
  let sh := imm.setWidth 6
  match fn3 with
  | 0 => some (.addi c rd rs1 imm)
  | 1 => some (.andi c rd rs1 imm)
  | 2 => some (.ori c rd rs1 imm)
  | 3 => some (.xori c rd rs1 imm)
  | 4 => some (.slli c rd rs1 sh)
  | 5 => some (if fld imm 11 6 = 0 then .srli c rd rs1 sh else .srai c rd rs1 sh)
  | 6 => some (.slti c rd rs1 imm)
  | 7 => some (.sltiu c rd rs1 imm)
  | _ => none

/-- LOAD (Table 5-7): format I. -/
def decodeLoad (c : CoreId) (fn3 : Nat) (rd rs1 : BitVec 5) (imm : BitVec 12) : Option Instr :=
  match fn3 with
  | 0 => some (.lb c rd rs1 imm)
  | 1 => some (.lh c rd rs1 imm)
  | 2 => some (.lw c rd rs1 imm)
  | 3 => some (.ld c rd rs1 imm)
  | 4 => some (.lbu c rd rs1 imm)
  | 5 => some (.lhu c rd rs1 imm)
  | 6 => some (.lwu c rd rs1 imm)
  | _ => none

/-- STORE (Table 5-7): format B. -/
def decodeStore (c : CoreId) (fn3 : Nat) (rs1 rs2 : BitVec 5) (imm : BitVec 12) : Option Instr :=
  match fn3 with
  | 0 => some (.sb c rs1 rs2 imm)
  | 1 => some (.sh c rs1 rs2 imm)
  | 2 => some (.sw c rs1 rs2 imm)
  | 3 => some (.sd c rs1 rs2 imm)
  | _ => none

/-- BRANCH (Table 5-8): format B. -/
def decodeBranch (c : CoreId) (fn3 : Nat) (rs1 rs2 : BitVec 5) (imm : BitVec 12) : Option Instr :=
  match fn3 with
  | 0 => some (.beq c rs1 rs2 imm)
  | 1 => some (.bne c rs1 rs2 imm)
  | 4 => some (.blt c rs1 rs2 imm)
  | 5 => some (.bge c rs1 rs2 imm)
  | 6 => some (.bltu c rs1 rs2 imm)
  | 7 => some (.bgeu c rs1 rs2 imm)
  | _ => none

/-- SYSTEM (Table 5-9): format I, the special register in imm12[2:0]. -/
def decodeSystem (c : CoreId) (fn3 : Nat) (rd rs1 : BitVec 5) (imm : BitVec 12) : Option Instr :=
  match fn3 with
  | 0 => some (.mfsr c rd (imm.setWidth 3))
  | 1 => some (.mtsr c (imm.setWidth 3) rs1)
  | 2 => some (.eret c)
  | 3 => some (.halt c imm)
  | 4 => some (.trap c imm)
  | 5 => some (.brk c imm)
  | 6 => some (.iflush c)
  | _ => none

/-- VARITH (Table 5-10): format V.  A compare's vd names a mask register (R157). -/
def decodeArith (c : CoreId) (fn5 : Nat) (ty : BitVec 2) (msk : BitVec 3) (vd vs1 vs2 : BitVec 5) : Option Instr :=
  let md := vd.setWidth 3
  match fn5 with
  | 0 => some (.vadd c ty vd vs1 vs2 msk)
  | 1 => some (.vsub c ty vd vs1 vs2 msk)
  | 2 => some (.vmul c ty vd vs1 vs2 msk)
  | 3 => some (.vfma c ty vd vs1 vs2 msk)
  | 4 => some (.vfms c ty vd vs1 vs2 msk)
  | 5 => some (.vmax c ty vd vs1 vs2 msk)
  | 6 => some (.vmin c ty vd vs1 vs2 msk)
  | 7 => some (.vabs c ty vd vs1 msk)
  | 8 => some (.vneg c ty vd vs1 msk)
  | 9 => some (.vexp2 c ty vd vs1 msk)
  | 10 => some (.vlog2 c ty vd vs1 msk)
  | 11 => some (.vrcp c ty vd vs1 msk)
  | 12 => some (.vrsq c ty vd vs1 msk)
  | 13 => some (.vand c ty vd vs1 vs2 msk)
  | 14 => some (.vor c ty vd vs1 vs2 msk)
  | 15 => some (.vxor c ty vd vs1 vs2 msk)
  | 16 => some (.vsll c ty vd vs1 vs2 msk)
  | 17 => some (.vsrl c ty vd vs1 vs2 msk)
  | 18 => some (.vsra c ty vd vs1 vs2 msk)
  | 19 => some (.vceq c ty md vs1 vs2 msk)
  | 20 => some (.vclt c ty md vs1 vs2 msk)
  | 21 => some (.vcle c ty md vs1 vs2 msk)
  | _ => none

/-- VMISC (Table 5-12): format V; VCVT's vs2 is its kind (Table 5-13). -/
def decodeMisc (c : CoreId) (fn5 : Nat) (ty : BitVec 2) (msk : BitVec 3) (vd vs1 vs2 : BitVec 5) : Option Instr :=
  let md := vd.setWidth 3
  let m1 := vs1.setWidth 3
  let m2 := vs2.setWidth 3
  match fn5 with
  | 0 => some (.vcvt c vs2 vd vs1 msk)
  | 1 => some (.vredsum c ty vd vs1 msk)
  | 2 => some (.vredmax c ty vd vs1 msk)
  | 3 => some (.vredmin c ty vd vs1 msk)
  | 4 => some (.vperm c vd vs1 vs2 msk)
  | 5 => some (.vrot c vd vs1 vs2 msk)
  | 6 => some (.vbcast c vd vs1 msk)
  | 7 => some (.vext c vd vs1 vs2)
  | 8 => some (.vins c vd vs1 vs2)
  | 9 => some (.vmov c vd vs1 msk)
  | 10 => some (.vsel c vd vs1 vs2 msk)
  | 11 => some (.viota c vd msk)
  | 12 => some (.mand c md m1 m2)
  | 13 => some (.mor c md m1 m2)
  | 14 => some (.mxor c md m1 m2)
  | 15 => some (.mandn c md m1 m2)
  | 16 => some (.mfm c vd m1)
  | 17 => some (.mtm c md vs1)
  | _ => none

/-- TENSOR, ACCUM, SPFE and DMASYNC (Table 6-1): format T. -/
def decodeTensor (c : CoreId) (op fn5 imm5 : Nat) (rd rs1 rs2 : BitVec 5) : Option Instr :=
  let scalar := imm5 % 2 == 1
  match op, fn5 with
  | 0x28, 0 => some (.mload c rs1)
  | 0x28, 1 => some (.mrun c rs1)
  | 0x28, 2 => some (.mscrub c rs1)
  | 0x29, 0 => some (.accOpen c rs1)
  | 0x29, 1 => some (.accClose c rs1)
  | 0x29, 2 => some (.accFlush c rs1)
  | 0x29, 3 => some (.accStat c rs1)
  | 0x29, 4 => some (.accPeek c rd rs1 rs2)
  | 0x29, 8 => some (.qout c rs1)
  | 0x2A, 0 => some (.spFill c rd rs1 rs2)
  | 0x2A, 1 => some (.spCopy c rd rs1 rs2 (BitVec.ofNat 2 imm5))
  | 0x2A, 8 => some (.feWrite c scalar rs1 rs2)
  | 0x2A, 9 => some (.feRead c scalar rd rs1)
  | 0x2A, 10 => some (.fePeek c scalar rd rs1 rs2)
  | 0x2A, 11 => some (.feSet c rs1 rs2)
  | 0x2A, 12 => some (.feClear c rs1 rs2)
  | 0x2C, 0 => some (.dmaPost c rd rs1 (Fin.ofNat 8 imm5))
  | 0x2C, 1 => some (.dmaWait c rs1 (Fin.ofNat 8 imm5))
  | 0x2C, 4 => some (.bar c (Fin.ofNat 8 imm5))
  | 0x2C, 5 => some (.waitev c rd rs1 scalar)
  | 0x2C, 6 => some (.yield c (Fin.ofNat 16 imm5))
  | 0x2C, 7 => some (.phase c (Fin.ofNat 16 imm5))
  | _, _ => none

/-- The command of a word by its major opcode (Table 5-2); the fields as the format of its group places them
(Table 5-1).  The words that a table leaves unassigned are set apart in `decodeWord`. -/
def decodeGroup (c : CoreId) (w : Word) : Option Instr :=
  let rd := wordField w 7 5
  let rs1 := wordField w 12 5
  let rs2 := wordField w 17 5
  let rs1B := wordField w 10 5
  let rs2B := wordField w 15 5
  let imm := wordField w 20 12
  let imm20 := wordField w 12 20
  let fn3 := fld w 19 17
  let fn3B := fld w 9 7
  match fld w 6 0 with
  | 0x05 => decodeAlu c false (fld w 31 22) rd rs1 rs2
  | 0x06 => decodeAlui c fn3 rd rs1 imm
  | 0x09 => decodeAlu c true (fld w 31 22) rd rs1 rs2
  | 0x0A => decodeLoad c fn3 rd rs1 imm
  | 0x0C => decodeStore c fn3B rs1B rs2B imm
  | 0x11 => some (.vld c rd rs1 (wordField w 17 3) imm)
  | 0x12 => some (.vst c rs1B rs2B (wordField w 7 3) imm)
  | 0x14 => some (.ldhi c rd imm20)
  | 0x15 => some (.addpch c rd imm20)
  | 0x18 => decodeBranch c fn3B rs1B rs2B imm
  | 0x19 => some (.jl c rd imm20)
  | 0x1A => some (.jlr c rd rs1 imm)
  | 0x1C => decodeSystem c fn3 rd rs1 imm
  | 0x21 => decodeArith c (fld w 31 27) (wordField w 25 2) (wordField w 22 3) rd rs1 rs2
  | 0x22 => decodeMisc c (fld w 31 27) (wordField w 25 2) (wordField w 22 3) rd rs1 rs2
  | op => decodeTensor c op (fld w 26 22) (fld w 31 27) rd rs1 rs2

/-- The command that core `c` carries out for word `w`: that of its group, or ILLEGAL_INSTRUCTION where no table assigns
the word (R138, R139). -/
def decodeWord (c : CoreId) (w : Word) : Instr :=
  if assigned w then (decodeGroup c w).getD (.illegalInstruction c w) else .illegalInstruction c w

end Sys2Proof.Machine
end

