-- ==== Sys2Proof/Safety.lean ====
section
/-! DEFINITION. The terms in which statements speak of runs: what a command does, a core that may issue, an access that
is served, the clocks in step, and the canonical form of every store. -/

namespace Sys2Proof

/-- The commands that act on a chip without a supply: those that bring it (a RESET press among them, R647), and those of the
RF side of the Blaze tag, which the reader's field feeds. -/
def Instr.unpowered : Instr → Bool
  | .powerOnReset _ _ | .trayInsert _ _ | .buttonRelease _ _ | .inventory _ _ _ | .stayQuiet _ | .readSingleBlock _ _
  | .extendedReadSingleBlock _ _ | .writeSingleBlock _ _ _ | .extendedWriteSingleBlock _ _ _ | .lockBlock _ _
  | .extendedLockBlock _ _ | .readMultipleBlocks _ _ _ | .extendedReadMultipleBlocks _ _ _ | .writeMultipleBlocks _ _ _
  | .extendedWriteMultipleBlocks _ _ _ | .getSystemInformation _ | .extendedGetSystemInformation _ | .lockRecord _ _ _
  | .releaseRecord _ _ _ | .readLocks _ | .fieldCollapse _ | .lockExpiry _ => true
  | _ => false

/-! ### Floating-point results (R159) -/

/-- Exponent field of a pattern of a format with `q` fraction bits. -/
def fpExp (q x : Nat) : Nat := x / 2 ^ q % 256

/-- Its sign. -/
def fpNeg (q x : Nat) : Bool := x / 2 ^ (q + 8) % 2 == 1

/-- A pattern of a finite number. -/
def fpFinite (q x : Nat) : Prop := x < 2 ^ (q + 9) ∧ fpExp q x ≠ 255

/-- A pattern of a NaN. -/
def fpNaN (q x : Nat) : Prop := x < 2 ^ (q + 9) ∧ fpExp q x = 255 ∧ x % 2 ^ q ≠ 0

/-- The value of a finite pattern in units of 2^(-126 - q), in which every finite number is whole; a subnormal input counts as
zero. -/
def fpUnits (q x : Nat) : Int :=
  let m : Int := if fpExp q x = 0 then 0 else ((2 ^ q + x % 2 ^ q) * 2 ^ (fpExp q x - 1) : Nat)
  if fpNeg q x then -m else m

/-- The pattern that `x` counts as: a subnormal as zero of its sign. -/
def fpCounts (q x : Nat) : Nat := if fpExp q x = 0 then fpZero q (fpNeg q x) else x

/-- Where the patterns that are no NaN stand in order, -0 before +0. -/
def fpPlace (q x : Nat) : Int := if fpNeg q x then -(x % 2 ^ (q + 8) : Nat) - 1 else (x % 2 ^ (q + 8) : Nat)

/-- `r` is the exact value v / D, in units of 2^(-126 - q), rounded once: to nearest even, overflow to infinity, a subnormal
result to zero of its sign; an exact zero has the sign `z`. -/
def fpRounded (q D : Nat) (v : Int) (z : Bool) (r : Nat) : Prop :=
  let far := fun (y : Nat) => (v - fpUnits q y * D).natAbs
  if v = 0 then r = fpZero q z
  else if 2 * v.natAbs < (2 ^ (q + 1) - 1) * D then r = fpZero q (decide (v < 0))
  else if (2 ^ (q + 2) - 1) * 2 ^ 252 * D ≤ v.natAbs then r = fpInf q (decide (v < 0))
  else fpFinite q r ∧ fpExp q r ≠ 0 ∧ fpNeg q r = decide (v < 0) ∧
    ∀ y, fpFinite q y → fpExp q y ≠ 0 → y ≠ r → far r < far y ∨ far r = far y ∧ r % 2 = 0

end Sys2Proof

namespace Sys2Proof.Machine
open Sys2Proof

/-- Command `c` completes from `s`, in a next state of which `P` holds. -/
def Does (c : Instr) (s : State) (P : State → Prop) : Prop := ∃ t, exec c s = .next t ∧ P t

/-- A safe run of `n` steps ends in a next state: neither a fault nor a refusal stops it. -/
def SafeRun (n : Nat) (s : State) : Prop := ∃ t, Sys2Proof.core.run n s = .next t

/-- The clocks are in step with time (R2): time advances by whole ticks of 40 ns, and the mesh clock of 1.6 GHz has counted
at most 64 cycles for each, all of them whole. -/
def State.clocked (s : State) : Prop := s.now % 40 = 0 ∧ s.nclk % 64 = 0 ∧ 5 * s.nclk ≤ 8 * s.now

/-- Core `c` issues the instruction at its pc without hindrance: it runs (Table 4-1), its pc is aligned and in a line of
its instruction cache, nothing deferred is reported and no STOP waits, and STEP is 0. -/
def State.ready (s : State) (c : CoreId) : Prop :=
  s.coreRuns c = true ∧ (s.core c).pc.toNat < 2 ^ 48 ∧ (s.core c).pc.toNat % 4 = 0 ∧
    (s.core c).icache.contains ((s.core c).pc.toNat / 64 * 64) = true ∧ (s.core c).deferred = [] ∧
    (s.core c).stopReq = false ∧ (s.core c).step = false

/-- Core `c` after the fetch of the instruction at its pc: the line is the most recently used one. -/
def Core.fetched (x : Core) : Core :=
  { x with icache := (x.pc.toNat / 64 * 64 :: x.icache.filter (· != x.pc.toNat / 64 * 64)).take 256 }

/-- The state after an instruction of core `c` that changes the core alone by `f` and goes on at `next`. -/
def State.goto (s : State) (c : CoreId) (next : Dword) (f : Core → Core) : State :=
  s.modCore c fun x => { f x.fetched with pc := next, wait := .none }

/-- The same, going on at the instruction that follows. -/
def State.done (s : State) (c : CoreId) (f : Core → Core) : State := s.goto c ((s.core c).pc + 4) f

/-- Core `c` takes a precise exception at its instruction (R118): the fetch is done, nothing else of it. -/
def State.trapped (s : State) (c : CoreId) (code : Nat) (tval : Dword) : State :=
  (s.modCore c Core.fetched).precise c code tval

/-- The state after a vector instruction of core `c`: lane i of vd, of element type `ty`, becomes `f i` where the mask
governs it with 1, and keeps its value elsewhere (R155). -/
def State.lanesDone (s : State) (c : CoreId) (ty : BitVec 2) (vd : BitVec 5) (m : Dword) (f : Nat → Nat) : State :=
  s.done c fun x => x.setV vd (maskedLanes ty m (x.vreg vd) f)

/-- What a narrow read of byte `o` of tile n's scratchpad gives: through the gather buffer (R337). -/
def State.byteAt (s : State) (n o : Nat) : Byte := (s.gbRead n (s.spWord n o) (o % 64) 1 rqSeq).1.headD 0

/-- The three copies of tile n's owner map agree (R68): its use repairs nothing. -/
def State.mapWhole (s : State) (n : Nat) : Prop :=
  s.torn (Reg.TILE n Reg.TILE_OWNER_MAP0) = false ∧ s.torn (Reg.TILE n (Reg.TILE_OWNER_MAP0 + 4)) = false

/-- The three copies of every window's voted fields agree (R68). -/
def State.winsWhole (s : State) : Prop :=
  ∀ r, Reg.YFAB_WIN 0 0 ≤ r → r < Reg.YFAB_WIN 0 0 + 0x2000 → s.torn r = false

/-- The own sequencer of tile n reaches the word that holds byte `o` of its scratchpad at once: SEQ owns the bank, nothing
holds the access, and no error stands in the word (R327, R332, R357). -/
def State.seqReach (s : State) (n o : Nat) : Prop :=
  s.seqStall n (s.spWord n o) = false ∧ s.ownerOf n (s.spWord n o) = oSeq ∧ s.mapWhole n ∧ s.wmark n (s.spWord n o) = {}

/-- The descriptor of code `kind` at address `a` is in a word of tile n's own scratchpad that the sequencer reaches, outside
the gather buffer, and passes the CRC check where it is on (R179 to R181). -/
def State.descrAt (s : State) (n : Fin 144) (a : Dword) (kind : Nat) : Prop :=
  let w := s.spWord n (a.toNat % 2 ^ 20)
  let d := s.wordBytes n w
  a.toNat % 64 = 0 ∧ s.inOwn n a.toNat 64 = true ∧ s.seqReach n (a.toNat % 2 ^ 20) ∧ gbFind (s.tile n).gb w = none ∧
    (s.bit (Reg.TILE n Reg.TILE_CTRL) 0 = false ∨ crc16 (d.take 62) = leAt d 62 2) ∧ leAt d 0 1 = kind

/-- The 64 bytes of the descriptor at `a`. -/
def State.descrBytes (s : State) (n : Fin 144) (a : Dword) : List Byte := s.wordBytes n (s.spWord n (a.toNat % 2 ^ 20))

/-- The state after an instruction of tile n that dispatches an operation: `f`, given the issue number, enters it into the
queues; the sequencer goes on, and the engines do what they can. -/
def State.dispatched (s : State) (n : Fin 144) (f : Nat → Tile → Tile) : State :=
  (s.modTile n fun t => { f t.issue t with
    issue := t.issue + 1, core := { t.core.fetched with pc := t.core.pc + 4, wait := .none } }).engines n

/-- Tile n's sequencer reaches the slot at offset `o` of its own scratchpad for a full/empty operation: the owner admits
tags, nothing holds the access, the word is not in the gather buffer and holds no error, and nobody waits at the tile. -/
def State.slotReach (s : State) (n o : Nat) : Prop :=
  let w := s.spWord n o
  tagAdmits (s.ownerOf n w) = true ∧ s.initBusy n = false ∧ s.handoverHolds n w (s.ownerOf n w) = false ∧
    s.spopHolds n w = false ∧ s.mapWhole n ∧ gbFind (s.tile n).gb w = none ∧ s.wmark n w = {} ∧ (s.tile n).waiters = []

/-- The enabled stripes of tile n have the geometry of R324: a power of two of banks from an aligned first bank, within
the 16 banks, and no bank in two stripes. -/
def State.stripesOk (s : State) (n : Nat) : Prop :=
  ∀ i f k, i < 4 → s.stripe n i = some (f, k) → f % k = 0 ∧ f + k ≤ 16 ∧
    ∀ j g l, j < 4 → j ≠ i → s.stripe n j = some (g, l) → f + k ≤ g ∨ g + l ≤ f

/-- `t` records exactly one event more than `s`: of this code, source and detail, stamped with the time of `s` (R630). -/
def State.logged (s t : State) (code src detail : Nat) : Prop :=
  let u := s.tallyIn code src (BitVec.ofNat 64 detail)
  t.tally = u.tally ∧ t.arrivals = u.arrivals ∧ t.rd Reg.TALLY_COUNT = u.rd Reg.TALLY_COUNT ∧
    t.rd Reg.TALLY_LOST = u.rd Reg.TALLY_LOST

/-- Nothing that waits holds an access of agent `a` to the register at `off` back (R65, R80, R81, R332): no access of the agent
is outstanding, the TILE block holds none of its writes, and TILE_OWNER waits for no other handover. -/
def State.regFree (s : State) (a : Agent) (off : Nat) : Bool :=
  (s.regWaits a).isEmpty && match locate off with
    | none => true
    | some l => l.blk != .tile || (!((s.tile l.inst).heldWrites.any fun w => w.agent == a) &&
        (l.rel != Reg.TILE_OWNER || !s.ownerBusy l.inst))

/-- An access of agent `a` to the register at `off` is served: the chip has a supply, nothing refuses it (R60, R88), and
nothing holds it back. -/
def State.serves (s : State) (a : Agent) (off : Nat) : Prop :=
  s.life.off = false ∧ s.regReason a off 4 off = none ∧ s.regFree a off = true

/-- Bytes `o` to `o + len - 1` of tile n's scratchpad lie in one word, in a bank of owner code `own`, without an error: the
port of that owner reaches them. -/
def State.portReach (s : State) (n own o len : Nat) : Prop :=
  o < 2 ^ 20 ∧ 0 < len ∧ o % 64 + len ≤ 64 ∧ s.ownerOf n (s.spWord n o) = own ∧ s.mapWhole n ∧ s.wmark n (s.spWord n o) = {}

/-- The bytes that such an access reads. -/
def State.portBytes (s : State) (n o len : Nat) : List Byte := ((s.wordBytes n (s.spWord n o)).drop (o % 64)).take len

/-- `t` holds `bs` at bytes `o` on of the word of tile n's scratchpad that holds byte `o` in `s`. -/
def State.wrote (s t : State) (n o : Nat) (bs : List Byte) : Prop :=
  ((t.wordBytes n (s.spWord n o)).drop (o % 64)).take bs.length = bs

/-- Every register but those at `offs` holds in `t` what it holds in `s`. -/
def State.regsBut (s t : State) (offs : List Nat) : Prop := ∀ off, off ∉ offs → t.rd off = s.rd off

/-- Every store of bytes, words and marks of the memories is in its canonical form. -/
def State.memWf (s : State) : Bool :=
  SMap.wf 0 s.spad && SMap.wf {} s.spMark && SMap.wf 0 s.spTag && SMap.wf 0 s.mrow && SMap.wf 0 s.mflip &&
    SMap.wf 0 s.hbm && SMap.wf {} s.hbmMark && SMap.wf 0 s.sram && SMap.wf 0xFF s.flash && SMap.wf 0 s.blaze

end Sys2Proof.Machine
end

