-- ==== Sys2Proof/Certificates/Slice0/Obligations.lean ====
section
/-! DEFINITION. The statements about the model, for the provers. -/

open Sys2Proof Sys2Proof.Machine

/-- From R143 and Table 5-4: a ready core that executes one of these instructions writes its result to s[rd] (nothing when rd
is 0) and goes on at the next instruction; every other register, all of memory and every other core stay as they were. -/
def Obligations.ScalarRegisterResults : Prop :=
  ∀ (s : State) (c : CoreId) (rd rs1 rs2 : BitVec 5), s.ready c →
    let a := (s.core c).sreg rs1
    let b := (s.core c).sreg rs2
    let one : Bool → Dword := fun q => if q then 1 else 0
    ∀ p ∈ [(Instr.add c rd rs1 rs2, a + b), (.sub c rd rs1 rs2, a - b), (.and c rd rs1 rs2, a &&& b),
        (.or c rd rs1 rs2, a ||| b), (.xor c rd rs1 rs2, a ^^^ b),
        (.sll c rd rs1 rs2, a <<< (b.toNat % 64)), (.srl c rd rs1 rs2, a >>> (b.toNat % 64)),
        (.sra c rd rs1 rs2, a.sshiftRight (b.toNat % 64)),
        (.slt c rd rs1 rs2, one (decide (a.toInt < b.toInt))), (.sltu c rd rs1 rs2, one (decide (a.toNat < b.toNat))),
        (.seq c rd rs1 rs2, one (decide (a = b))),
        (.min c rd rs1 rs2, BitVec.ofInt 64 (min a.toInt b.toInt)), (.max c rd rs1 rs2, BitVec.ofInt 64 (max a.toInt b.toInt)),
        (.minu c rd rs1 rs2, BitVec.ofNat 64 (min a.toNat b.toNat)), (.maxu c rd rs1 rs2, BitVec.ofNat 64 (max a.toNat b.toNat)),
        (.mul c rd rs1 rs2, BitVec.ofNat 64 (a.toNat * b.toNat)),
        (.mulh c rd rs1 rs2, BitVec.ofInt 64 (a.toInt * b.toInt / 2 ^ 64)),
        (.mulhu c rd rs1 rs2, BitVec.ofNat 64 (a.toNat * b.toNat / 2 ^ 64))],
      exec p.1 s = .next (s.done c fun x => x.setS rd p.2)

/-- From R144 and Table 5-5: a ready core divides; division by zero and the overflow give the results of the table, or raise
0x0E and 0x0F where DZTRAP and OVTRAP are 1. -/
def Obligations.DivisionResults : Prop :=
  ∀ (s : State) (c : CoreId) (rd rs1 rs2 : BitVec 5), s.ready c →
    let x := s.core c
    let a := x.sreg rs1
    let b := x.sreg rs2
    let trap := fun (code : Nat) => Host.Outcome.next (φ := Fault) (ρ := Refusal) ((s.trapped c code a).flushDeferred c)
    let gives := fun (v : Dword) => Host.Outcome.next (φ := Fault) (ρ := Refusal) (s.done c fun x => x.setS rd v)
    ∀ p ∈ [(Instr.div c rd rs1 rs2, true, BitVec.allOnes 64, BitVec.ofInt 64 (a.toInt.tdiv b.toInt)),
        (.rem c rd rs1 rs2, true, a, BitVec.ofInt 64 (a.toInt.tmod b.toInt)),
        (.divu c rd rs1 rs2, false, BitVec.allOnes 64, BitVec.ofNat 64 (a.toNat / b.toNat)),
        (.remu c rd rs1 rs2, false, a, BitVec.ofNat 64 (a.toNat % b.toNat))],
      exec p.1 s =
        if b = 0 then (if x.dztrap then trap 0x0E else gives p.2.2.1)
        else if p.2.1 ∧ a.toInt = -2 ^ 63 ∧ b.toInt = -1 ∧ x.ovtrap then trap 0x0F
        else gives p.2.2.2

/-- From R145, R146 and Table 5-6: the instructions with an immediate, 12 bits sign-extended or a shift amount of 6 bits, and
LDHI and ADDPCH, whose immediate is sext(imm20 << 12). -/
def Obligations.ImmediateResults : Prop :=
  ∀ (s : State) (c : CoreId) (rd rs1 : BitVec 5) (imm : BitVec 12) (sh : BitVec 6) (up : BitVec 20), s.ready c →
    let a := (s.core c).sreg rs1
    let i : Dword := BitVec.ofInt 64 imm.toInt
    let u : Dword := BitVec.ofInt 64 (up.toInt * 4096)
    let one : Bool → Dword := fun q => if q then 1 else 0
    ∀ p ∈ [(Instr.addi c rd rs1 imm, a + i), (.andi c rd rs1 imm, a &&& i), (.ori c rd rs1 imm, a ||| i),
        (.xori c rd rs1 imm, a ^^^ i), (.slli c rd rs1 sh, a <<< sh.toNat), (.srli c rd rs1 sh, a >>> sh.toNat),
        (.srai c rd rs1 sh, a.sshiftRight sh.toNat), (.slti c rd rs1 imm, one (decide (a.toInt < imm.toInt))),
        (.sltiu c rd rs1 imm, one (decide (a.toNat < i.toNat))), (.ldhi c rd up, u), (.addpch c rd up, (s.core c).pc + u)],
      exec p.1 s = .next (s.done c fun x => x.setS rd p.2)

/-- From R151 and Table 5-8: a branch goes to pc + 4 sext(imm12) where its condition holds and to the next instruction
elsewhere; it changes nothing but the pc. -/
def Obligations.BranchTargets : Prop :=
  ∀ (s : State) (c : CoreId) (rs1 rs2 : BitVec 5) (imm : BitVec 12), s.ready c →
    let a := (s.core c).sreg rs1
    let b := (s.core c).sreg rs2
    ∀ p ∈ [(Instr.beq c rs1 rs2 imm, decide (a = b)), (.bne c rs1 rs2 imm, decide (a ≠ b)),
        (.blt c rs1 rs2 imm, decide (a.toInt < b.toInt)), (.bge c rs1 rs2 imm, decide (b.toInt ≤ a.toInt)),
        (.bltu c rs1 rs2 imm, decide (a.toNat < b.toNat)), (.bgeu c rs1 rs2 imm, decide (b.toNat ≤ a.toNat))],
      exec p.1 s = .next (if p.2 then s.goto c ((s.core c).pc + BitVec.ofInt 64 (4 * imm.toInt)) id else s.done c id)

/-- From R151 and R173: JL and JLR write pc + 4 to s[rd] and jump, JLR to s[rs1] + sext(imm12) with the old s[rs1]; where that
target is not a multiple of 4 JLR raises 0x02 with the target as tval and writes nothing. -/
def Obligations.JumpsAndLinks : Prop :=
  ∀ (s : State) (c : CoreId) (rd rs1 : BitVec 5) (imm : BitVec 12) (far : BitVec 20), s.ready c →
    let x := s.core c
    let t := x.sreg rs1 + BitVec.ofInt 64 imm.toInt
    exec (.jl c rd far) s = .next (s.goto c (x.pc + BitVec.ofInt 64 (4 * far.toInt)) fun y => y.setS rd (x.pc + 4)) ∧
    exec (.jlr c rd rs1 imm) s =
      .next (if t.toNat % 4 = 0 then s.goto c t fun y => y.setS rd (x.pc + 4) else s.trapped c 0x02 t)

/-- From R125, R139 and R152: TRAP and BRK raise 0x20 and 0x21 with the immediate as tval, and a word that is not assigned
raises 0x01 with the word as tval. -/
def Obligations.TrapsRaiseTheirCause : Prop :=
  ∀ (s : State) (c : CoreId) (imm : BitVec 12) (w : Word), s.ready c →
    exec (.trap c imm) s = .next (s.trapped c 0x20 (imm.setWidth 64)) ∧
    exec (.brk c imm) s = .next (s.trapped c 0x21 (imm.setWidth 64)) ∧
    (assigned w = false → exec (.illegalInstruction c w) s = .next (s.trapped c 0x01 (w.setWidth 64)))

/-- From R118 and R120: a precise exception of a tile whose task runs, reported alone, writes cause (CODE, ASYNC 0), epc and
tval, and the task enters DRAINING without an exit code, to end STOPPED; the pc, the other registers and every memory stay. -/
def Obligations.TileTakesPreciseException : Prop :=
  ∀ (s : State) (n : Fin 144) (code : Nat) (tval : Dword), s.ready (.tile n) → code < 64 →
    let t := s.trapped (.tile n) code tval
    let x := s.core (.tile n)
    let y := t.core (.tile n)
    y = { x.fetched with cause := BitVec.ofNat 64 code, epc := x.pc, tval := tval, task := .draining } ∧
      (t.tile n).exit = none ∧ t.regs = s.regs ∧ t.spad = s.spad ∧ t.hbm = s.hbm ∧ t.sram = s.sram ∧ t.txns = s.txns ∧
      (∀ m : Fin 144, m ≠ n → t.tile m = s.tile m) ∧ t.rangers = s.rangers ∧ t.out = s.out

/-- From R58, R122 and R130: a precise exception of a Ranger core with EXC 0 writes cause, epc and tval, copies MODE to PMODE,
sets MODE and EXC to 1 and goes to RANGER_EVEC; at the boot ROM's entry the core then halts and event 0x7001 is recorded
(in the same step: the model's choice, log 16), and so it is with EXC 1, where the registers stay as they were. -/
def Obligations.RangerTakesPreciseException : Prop :=
  ∀ (s : State) (k : Fin 4) (code : Nat) (tval : Dword), s.ready (.ranger k) → code < 64 →
    let t := s.trapped (.ranger k) code tval
    let x := s.core (.ranger k)
    let y := t.core (.ranger k)
    t.tiles = s.tiles ∧ t.spad = s.spad ∧ t.hbm = s.hbm ∧ t.out = s.out ∧
    (∀ j : Fin 4, j ≠ k → t.core (.ranger j) = s.core (.ranger j)) ∧
    (x.exc = true ∨ s.evec k = 0x1E00100000 → s.logged t 0x7001 k (code + 2 ^ 16 * (x.pc.toNat % 2 ^ 48))) ∧
    (x.exc = true → y = { x.fetched with halted := true }) ∧
    (x.exc = false →
      y = { x.fetched with cause := BitVec.ofNat 64 code, epc := x.pc, tval := tval, pc := s.evec k, status := y.status,
                           halted := s.evec k == 0x1E00100000 } ∧
        y.mode = true ∧ y.exc = true ∧ y.pmode = x.mode ∧ (∀ i, 3 ≤ i → y.status.getLsbD i = x.status.getLsbD i) ∧
        (s.evec k ≠ 0x1E00100000 → t.regs = s.regs))

/-- From R123 and R153: ERET on a Ranger core loads the pc from epc and MODE from PMODE and clears EXC, the other registers
staying; on a tile sequencer it raises 0x01. -/
def Obligations.ExceptionReturn : Prop :=
  ∀ (s : State) (c : CoreId), s.ready c →
    match c with
    | .ranger _ =>
      let x := s.core c
      Does (.eret c) s fun t =>
        let y := t.core c
        y = { x.fetched with pc := x.epc, status := y.status } ∧ y.mode = x.pmode ∧ y.exc = false ∧
          (∀ i, i ≠ 0 → i ≠ 2 → y.status.getLsbD i = x.status.getLsbD i) ∧ t.tiles = s.tiles ∧ t.regs = s.regs ∧
          t.spad = s.spad ∧ t.hbm = s.hbm ∧ (∀ d, d ≠ c → t.core d = s.core d)
    | .tile _ => exec (.eret c) s = .next (s.trapped c 0x01 0x4001C)

/-- From R116 and R153: HALT on a tile latches the exit code and the task enters DRAINING at that pc; on a Ranger core it raises
0x01. -/
def Obligations.HaltDrainsTheTask : Prop :=
  ∀ (s : State) (c : CoreId) (imm : BitVec 12), s.ready c →
    match c with
    | .tile n =>
      exec (.halt c imm) s = .next (s.modTile n fun t =>
        { t with exit := some imm, core := { t.core.fetched with task := .draining } })
    | .ranger _ => exec (.halt c imm) s = .next (s.trapped c 0x01 (BitVec.ofNat 64 (imm.toNat * 2 ^ 20 + 0x6001C)))

/-- From R152 to R154: MFSR reads the special register it names.  MTSR writes PMODE, EXC, DZTRAP, OVTRAP and STEP of status,
and on a Ranger core cause, epc and tval; any other special register raises 0x01 with the word as tval. -/
def Obligations.SpecialRegisterAccess : Prop :=
  ∀ (s : State) (c : CoreId) (rd rs1 : BitVec 5) (sr : BitVec 3), s.ready c →
    let x := s.core c
    let v := x.sreg rs1
    let keeps : Dword → (Core → Core) → Prop := fun _ f => exec (.mtsr c sr rs1) s = .next (s.done c f)
    exec (.mfsr c rd sr) s = .next (s.done c fun y => y.setS rd
      (match sr.toNat with
       | 0 => x.pc | 1 => x.status | 2 => x.cause | 3 => x.epc | 4 => x.tval | 5 => x.phase | k => s.special c k)) ∧
    (if sr = 1 then keeps v fun y => { y with status := (x.status &&& ~~~0x3E) ||| (v &&& 0x3E) }
     else if sr = 2 ∧ c.isRanger then keeps v fun y => { y with cause := v &&& 0xFFFF0FFF }
     else if sr = 3 ∧ c.isRanger then keeps v fun y => { y with epc := v }
     else if sr = 4 ∧ c.isRanger then keeps v fun y => { y with tval := v }
     else exec (.mtsr c sr rs1) s =
       .next (s.trapped c 0x01 (BitVec.ofNat 64 (sr.toNat * 2 ^ 20 + 0x20000 + rs1.toNat * 2 ^ 12 + 0x1C))))

/-- From R110, R147 and Table 5-7: a scalar load at an aligned address of the own tile's scratchpad writes the addressed bytes,
little-endian and sign-extended or zero-extended, to s[rd]; no byte of memory and no register of the register space
changes. -/
def Obligations.OwnScratchpadLoads : Prop :=
  ∀ (s : State) (n : Fin 144) (z o : Nat) (rd rs1 : BitVec 5) (imm : BitVec 12),
    let c := CoreId.tile n
    let x := s.core c
    ∀ p ∈ [(Instr.lb c rd rs1 imm, 1, true), (.lh c rd rs1 imm, 2, true), (.lw c rd rs1 imm, 4, true),
        (.ld c rd rs1 imm, 8, false), (.lbu c rd rs1 imm, 1, false), (.lhu c rd rs1 imm, 2, false), (.lwu c rd rs1 imm, 4, false)],
      s.ready c → (z = 255 ∨ z = s.chipId) → o < 2 ^ 20 → o % p.2.1 = 0 →
      (x.sreg rs1 + BitVec.ofInt 64 imm.toInt).toNat = z * 2 ^ 40 + 0x1000000000 + n * 2 ^ 20 + o →
      s.seqReach n o → (s.tile n).gb = [] →
      let v := leNat (((s.wordBytes n (s.spWord n o)).drop (o % 64)).take p.2.1)
      Does p.1 s fun t =>
        t.core c = { x.fetched.setS rd (if p.2.2 then BitVec.ofInt 64 (sInt (8 * p.2.1) v) else BitVec.ofNat 64 v) with
          pc := x.pc + 4 } ∧
        t.spad = s.spad ∧ t.spMark = s.spMark ∧ t.regs = s.regs ∧ (∀ m j, t.byteAt m j = s.byteAt m j) ∧
        (∀ d, d ≠ c → t.core d = s.core d)

/-- From R110, R147 and Table 5-7: a scalar store at an aligned address of the own tile's scratchpad replaces the bytes at
that address by the low bytes of s[rs2], little-endian; every other byte of every scratchpad reads as before, and of
the core only the pc moves. -/
def Obligations.OwnScratchpadStores : Prop :=
  ∀ (s : State) (n : Fin 144) (z o : Nat) (rs1 rs2 : BitVec 5) (imm : BitVec 12),
    let c := CoreId.tile n
    let x := s.core c
    ∀ p ∈ [(Instr.sb c rs1 rs2 imm, 1), (.sh c rs1 rs2 imm, 2), (.sw c rs1 rs2 imm, 4), (.sd c rs1 rs2 imm, 8)],
      s.ready c → (z = 255 ∨ z = s.chipId) → o < 2 ^ 20 → o % p.2 = 0 →
      (x.sreg rs1 + BitVec.ofInt 64 imm.toInt).toNat = z * 2 ^ 40 + 0x1000000000 + n * 2 ^ 20 + o →
      s.seqReach n o → (s.tile n).gb = [] →
      Does p.1 s fun t =>
        t.core c = { x.fetched with pc := x.pc + 4 } ∧
        (∀ i, i < p.2 → t.byteAt n (o + i) = (x.sreg rs2).extractLsb' (8 * i) 8) ∧
        (∀ m j, (m ≠ n ∨ s.spWord n j ≠ s.spWord n o ∨ j % 64 < o % 64 ∨ o % 64 + p.2 ≤ j % 64) →
          t.byteAt m j = s.byteAt m j) ∧
        t.regs = s.regs ∧ t.hbm = s.hbm ∧ (∀ d, d ≠ c → t.core d = s.core d)

/-- From R148 to R150: VLD loads 256 bytes, element i of vd where mask bit i is 1, and VST stores element i there and leaves
the bytes of the others alone; the address is s[rs1] + 64 sext(imm12). -/
def Obligations.OwnVectorLoadAndStore : Prop :=
  ∀ (s : State) (n : Fin 144) (z o : Nat) (vd vs2 rs1 : BitVec 5) (msk : BitVec 3) (imm : BitVec 12),
    let c := CoreId.tile n
    let x := s.core c
    let m := x.mreg msk
    s.ready c → (z = 255 ∨ z = s.chipId) → o + 256 ≤ 2 ^ 20 → o % 64 = 0 →
    (x.sreg rs1 + BitVec.ofInt 64 (64 * imm.toInt)).toNat = z * 2 ^ 40 + 0x1000000000 + n * 2 ^ 20 + o →
    (∀ i, i < 4 → s.seqReach n (o + 64 * i)) → (s.tile n).gb = [] →
    (∀ i j, i < j → j < 4 → s.spWord n (o + 64 * i) ≠ s.spWord n (o + 64 * j)) →
    Does (.vld c vd rs1 msk imm) s (fun t =>
      (∀ i, i < 64 → lane 32 ((t.core c).vreg vd) i =
        if m.getLsbD i then leNat ((List.range 4).map fun b => s.byteAt n (o + 4 * i + b)) else lane 32 (x.vreg vd) i) ∧
      (t.core c).pc = x.pc + 4 ∧ (∀ r, r ≠ vd → (t.core c).vreg r = x.vreg r) ∧ (t.core c).s = x.s ∧
      (t.core c).m = x.m ∧ t.spad = s.spad ∧ t.regs = s.regs) ∧
    Does (.vst c rs1 vs2 msk imm) s (fun t =>
      (∀ i b, i < 64 → b < 4 → m.getLsbD i = true →
        t.byteAt n (o + 4 * i + b) = ((x.vreg vs2).extractLsb' (32 * i + 8 * b) 8)) ∧
      (∀ i b, i < 64 → b < 4 → m.getLsbD i = false → t.byteAt n (o + 4 * i + b) = s.byteAt n (o + 4 * i + b)) ∧
      (∀ k j, (k ≠ n ∨ ∀ i, i < 4 → s.spWord n j ≠ s.spWord n (o + 64 * i)) → t.byteAt k j = s.byteAt k j) ∧
      t.core c = { x.fetched with pc := x.pc + 4 } ∧ t.regs = s.regs)

/-- From R110, R752: a scalar load or store below the register space whose address is not a multiple of its size raises 0x04,
precise, with the address as tval, and neither writes a register of the core but cause, epc and tval nor a byte of memory.
R139, R156: a VARITH word whose element type Table 5-10 does not give raises 0x01 with the word as tval. -/
def Obligations.MisalignedAndUnlistedFormsTrap : Prop :=
  (∀ (s : State) (c : CoreId) (rd rs1 rs2 : BitVec 5) (imm : BitVec 12), s.ready c →
     let x := s.core c
     let a := x.sreg rs1 + BitVec.ofInt 64 imm.toInt
     ∀ p ∈ [(Instr.lh c rd rs1 imm, 2), (.lw c rd rs1 imm, 4), (.ld c rd rs1 imm, 8), (.lhu c rd rs1 imm, 2),
         (.lwu c rd rs1 imm, 4), (.sh c rs1 rs2 imm, 2), (.sw c rs1 rs2 imm, 4), (.sd c rs1 rs2 imm, 8)],
       a.toNat < 2 ^ 48 → a.toNat % p.2 ≠ 0 → a.toNat % 2 ^ 40 < 0x1C00000000 →
       exec p.1 s = .next (s.trapped c 0x04 a)) ∧
  (∀ (s : State) (c : CoreId) (ty : BitVec 2) (vd vs1 vs2 : BitVec 5) (msk : BitVec 3), s.ready c →
     (ty = 3 → ∀ p ∈ [(Instr.vadd c ty vd vs1 vs2 msk, 0), (.vsub c ty vd vs1 vs2 msk, 1), (.vmul c ty vd vs1 vs2 msk, 2),
         (.vmax c ty vd vs1 vs2 msk, 5), (.vmin c ty vd vs1 vs2 msk, 6)],
       exec p.1 s = .next (s.trapped c 0x01 ((wordV 0x21 p.2 ty.toNat msk vs2 vs1 vd).setWidth 64))) ∧
     (ty = 3 → ∀ p ∈ [(Instr.vabs c ty vd vs1 msk, 7), (.vneg c ty vd vs1 msk, 8)],
       exec p.1 s = .next (s.trapped c 0x01 ((wordV 0x21 p.2 ty.toNat msk 0 vs1 vd).setWidth 64))) ∧
     (2 ≤ ty → ∀ p ∈ [(Instr.vfma c ty vd vs1 vs2 msk, 3, vs2), (.vfms c ty vd vs1 vs2 msk, 4, vs2),
         (.vexp2 c ty vd vs1 msk, 9, 0), (.vlog2 c ty vd vs1 msk, 10, 0), (.vrcp c ty vd vs1 msk, 11, 0),
         (.vrsq c ty vd vs1 msk, 12, 0)],
       exec p.1 s = .next (s.trapped c 0x01 ((wordV 0x21 p.2.1 ty.toNat msk p.2.2 vs1 vd).setWidth 64))) ∧
     (ty ≠ 2 → ∀ p ∈ [(Instr.vand c ty vd vs1 vs2 msk, 13), (.vor c ty vd vs1 vs2 msk, 14), (.vxor c ty vd vs1 vs2 msk, 15),
         (.vsll c ty vd vs1 vs2 msk, 16), (.vsrl c ty vd vs1 vs2 msk, 17), (.vsra c ty vd vs1 vs2 msk, 18)],
       exec p.1 s = .next (s.trapped c 0x01 ((wordV 0x21 p.2 ty.toNat msk vs2 vs1 vd).setWidth 64))))

/-- From R105, R155: lane i of a masked vector result is the new value where the governing mask bit is 1, the old lane where
it is 0; a BF16 lane is governed by bit i / 2. -/
def Obligations.MaskGovernsLanes : Prop :=
  ∀ (ty : BitVec 2) (m : Dword) (old : BitVec 2048) (f : Nat → Nat) (i : Nat), i < laneCount ty →
    lane (laneBits ty) (maskedLanes ty m old f) i =
      if m.getLsbD (if ty = 1 then i / 2 else i) then f i % 2 ^ laneBits ty else lane (laneBits ty) old i

/-- From R156 and R158, Table 5-10: the I32 lanes of the VARITH instructions; sums, products and shifts wrap at 32 bits. -/
def Obligations.VectorIntegerLanes : Prop :=
  ∀ (s : State) (c : CoreId) (vd vs1 vs2 : BitVec 5) (msk : BitVec 3), s.ready c →
    let x := s.core c
    let a := fun (i : Nat) => lane 32 (x.vreg vs1) i
    let b := fun (i : Nat) => lane 32 (x.vreg vs2) i
    ∀ p ∈ [(Instr.vadd c 2 vd vs1 vs2 msk, fun i => a i + b i), (.vsub c 2 vd vs1 vs2 msk, fun i => a i + 2 ^ 32 - b i),
        (.vmul c 2 vd vs1 vs2 msk, fun i => a i * b i),
        (.vmax c 2 vd vs1 vs2 msk, fun i => if sInt 32 (a i) < sInt 32 (b i) then b i else a i),
        (.vmin c 2 vd vs1 vs2 msk, fun i => if sInt 32 (b i) < sInt 32 (a i) then b i else a i),
        (.vabs c 2 vd vs1 msk, fun i => if sInt 32 (a i) < 0 then 2 ^ 32 - a i else a i),
        (.vneg c 2 vd vs1 msk, fun i => 2 ^ 32 - a i),
        (.vand c 2 vd vs1 vs2 msk, fun i => a i &&& b i), (.vor c 2 vd vs1 vs2 msk, fun i => a i ||| b i),
        (.vxor c 2 vd vs1 vs2 msk, fun i => a i ^^^ b i), (.vsll c 2 vd vs1 vs2 msk, fun i => a i * 2 ^ (b i % 32)),
        (.vsrl c 2 vd vs1 vs2 msk, fun i => a i / 2 ^ (b i % 32)),
        (.vsra c 2 vd vs1 vs2 msk, fun i => (sInt 32 (a i) / 2 ^ (b i % 32) % 2 ^ 32).toNat)],
      exec p.1 s = .next (s.lanesDone c 2 vd (x.mreg msk) p.2)

/-- From R156, R159 to R162 and Table 5-11: the FP32 and BF16 lanes of the VARITH instructions.  Of finite numbers, VADD, VSUB,
VMUL, VFMA, VFMS and VRCP give the exact result rounded once to nearest even, with subnormals counted as zero; a NaN operand
gives the canonical NaN; VMAX and VMIN treat -0 as less than +0 and pass a NaN over; VABS and VNEG change only the sign bit;
VEXP2, VLOG2, VRCP and VRSQ have the special values of the table, and powers of two exactly. -/
def Obligations.VectorFloatLanes : Prop :=
  ∀ (s : State) (c : CoreId) (ty : BitVec 2) (vd vs1 vs2 : BitVec 5) (msk : BitVec 3), s.ready c → (ty = 0 ∨ ty = 1) →
    let x := s.core c
    let w := if ty = 1 then 16 else 32
    let q := if ty = 1 then 7 else 23
    let d := fun (i : Nat) => lane w (x.vreg vd) i
    let a := fun (i : Nat) => lane w (x.vreg vs1) i
    let b := fun (i : Nat) => lane w (x.vreg vs2) i
    ∀ p ∈ [(Instr.vadd c ty vd vs1 vs2 msk, fun i => fpAdd q (a i) (b i)),
        (.vsub c ty vd vs1 vs2 msk, fun i => fpSub q (a i) (b i)), (.vmul c ty vd vs1 vs2 msk, fun i => fpMul q (a i) (b i)),
        (.vfma c ty vd vs1 vs2 msk, fun i => fpFma q (d i) (a i) (b i)),
        (.vfms c ty vd vs1 vs2 msk, fun i => fpFms q (d i) (a i) (b i)),
        (.vmax c ty vd vs1 vs2 msk, fun i => fpMax q (a i) (b i)), (.vmin c ty vd vs1 vs2 msk, fun i => fpMin q (a i) (b i)),
        (.vabs c ty vd vs1 msk, fun i => a i % 2 ^ (w - 1)), (.vneg c ty vd vs1 msk, fun i => a i ^^^ 2 ^ (w - 1)),
        (.vexp2 c ty vd vs1 msk, fun i => fpExp2 q (a i)), (.vlog2 c ty vd vs1 msk, fun i => fpLog2 q (a i)),
        (.vrcp c ty vd vs1 msk, fun i => fpRcp q (a i)), (.vrsq c ty vd vs1 msk, fun i => fpRsq q (a i))],
      exec p.1 s = .next (s.lanesDone c ty vd (x.mreg msk) p.2) ∧
    let u := 2 ^ (126 + q)
    let pos := fpInf q false
    let sgn := fpNeg q
    let val := fpUnits q
    (∀ d a b, fpFinite q d → fpFinite q a → fpFinite q b →
      fpRounded q 1 (val a + val b) (sgn a && sgn b) (fpAdd q a b) ∧
      fpRounded q 1 (val a - val b) (sgn a && !sgn b) (fpSub q a b) ∧
      fpRounded q u (val a * val b) (sgn a != sgn b) (fpMul q a b) ∧
      fpRounded q u (val d * u + val a * val b) (sgn d && (sgn a != sgn b)) (fpFma q d a b) ∧
      fpRounded q u (val d * u - val a * val b) (sgn d && (sgn a == sgn b)) (fpFms q d a b) ∧
      (val a ≠ 0 → fpRounded q (val a).natAbs (if sgn a then -(u * u : Nat) else (u * u : Nat)) false (fpRcp q a))) ∧
    (∀ d a b, d < 2 ^ w → a < 2 ^ w → b < 2 ^ w →
      (fpNaN q a ∨ fpNaN q b → fpAdd q a b = fpNan q ∧ fpSub q a b = fpNan q ∧ fpMul q a b = fpNan q) ∧
      (fpNaN q d ∨ fpNaN q a ∨ fpNaN q b → fpFma q d a b = fpNan q ∧ fpFms q d a b = fpNan q) ∧
      (fpNaN q a → fpExp2 q a = fpNan q ∧ fpLog2 q a = fpNan q ∧ fpRcp q a = fpNan q ∧ fpRsq q a = fpNan q) ∧
      (fpNaN q a → fpNaN q b → fpMax q a b = fpNan q ∧ fpMin q a b = fpNan q) ∧
      (fpNaN q a → ¬fpNaN q b → fpMax q a b = fpCounts q b ∧ fpMin q a b = fpCounts q b) ∧
      (¬fpNaN q a → fpNaN q b → fpMax q a b = fpCounts q a ∧ fpMin q a b = fpCounts q a) ∧
      (¬fpNaN q a → ¬fpNaN q b → let l := fpCounts q a
        let r := fpCounts q b
        fpMax q a b = (if fpPlace q l < fpPlace q r then r else l) ∧
          fpMin q a b = if fpPlace q r < fpPlace q l then r else l)) ∧
    (∀ (i j : Bool) (b : Nat), fpFinite q b →
      let x := fpInf q i
      let y := fpInf q j
      fpAdd q x b = x ∧ fpAdd q b x = x ∧ fpSub q x b = x ∧ fpSub q b x = fpInf q (!i) ∧
        fpAdd q x y = (if i = j then x else fpNan q) ∧ fpSub q x y = (if i = j then fpNan q else x) ∧
        fpMul q x y = fpInf q (i != j) ∧ fpMul q x b = if val b = 0 then fpNan q else fpInf q (i != sgn b)) ∧
    (fpExp2 q pos = pos ∧ fpExp2 q (fpInf q true) = 0 ∧ fpLog2 q pos = pos ∧ fpLog2 q (fpInf q true) = fpNan q ∧
      fpRcp q pos = 0 ∧ fpRcp q (fpInf q true) = fpZero q true ∧ fpRsq q pos = 0 ∧ fpRsq q (fpInf q true) = fpNan q) ∧
    (∀ a, fpFinite q a →
      (val a = 0 → fpExp2 q a = 127 * 2 ^ q ∧ fpLog2 q a = fpInf q true ∧ fpRcp q a = fpInf q (sgn a) ∧
        fpRsq q a = fpInf q (sgn a)) ∧
      (val a < 0 → fpLog2 q a = fpNan q ∧ fpRsq q a = fpNan q) ∧
      (128 * u ≤ val a → fpExp2 q a = pos) ∧ (val a ≤ -(127 * u : Nat) → fpExp2 q a = 0) ∧
      (∀ n : Int, -126 ≤ n → n ≤ 127 → (val a = n * u → fpExp2 q a = (n + 127).toNat * 2 ^ q) ∧
        (val a = 2 ^ (n + 126 + q).toNat → fpFinite q (fpLog2 q a) ∧ val (fpLog2 q a) = n * u) ∧
        (val a = 2 ^ (2 * n + 126 + q).toNat → -63 ≤ n → n ≤ 63 → fpRsq q a = (127 - n).toNat * 2 ^ q)))

/-- From R157: a compare of FP32 or I32 elements writes bit i of m[md]: 1 where the governing bit is 1 and the relation holds;
m0 takes no write. -/
def Obligations.VectorCompares : Prop :=
  ∀ (s : State) (c : CoreId) (ty : BitVec 2) (md : BitVec 3) (vs1 vs2 : BitVec 5) (msk : BitVec 3), s.ready c →
    (ty = 0 ∨ ty = 2) →
    let x := s.core c
    let a := fun (i : Nat) => lane 32 (x.vreg vs1) i
    let b := fun (i : Nat) => lane 32 (x.vreg vs2) i
    ∀ p ∈ [(Instr.vceq c ty md vs1 vs2 msk, fun i => if ty = 2 then decide (a i = b i) else laneEq 0 (a i) (b i)),
        (.vclt c ty md vs1 vs2 msk, fun i =>
          if ty = 2 then decide (sInt 32 (a i) < sInt 32 (b i)) else fpLt (fpDec 23 (a i)) (fpDec 23 (b i))),
        (.vcle c ty md vs1 vs2 msk, fun i =>
          if ty = 2 then decide (sInt 32 (a i) ≤ sInt 32 (b i))
          else fpLt (fpDec 23 (a i)) (fpDec 23 (b i)) || laneEq 0 (a i) (b i))],
      ∃ r : Dword, exec p.1 s = .next (s.done c fun y => y.setM md r) ∧
        ∀ i, i < 64 → r.getLsbD i = ((x.mreg msk).getLsbD i && p.2 i)

/-- From R163, R165, Tables 5-12 and 5-13: the VMISC instructions that write a vector. -/
def Obligations.VectorMoves : Prop :=
  ∀ (s : State) (c : CoreId) (ty : BitVec 2) (kind vd vs1 vs2 rs1 rs2 : BitVec 5) (msk : BitVec 3), s.ready c →
    let x := s.core c
    let m := x.mreg msk
    let a := fun (i : Nat) => lane 32 (x.vreg vs1) i
    let b := fun (i : Nat) => lane 32 (x.vreg vs2) i
    let k := (x.sreg rs2).toNat
    (∀ p ∈ [(Instr.vperm c vd vs1 vs2 msk, m, fun i => a (b i % 64)), (.vrot c vd vs1 rs2 msk, m, fun i => a ((i + k) % 64)),
        (.vbcast c vd rs1 msk, m, fun _ => (x.sreg rs1).toNat), (.vmov c vd vs1 msk, m, a), (.viota c vd msk, m, fun i => i),
        (.vins c vd rs1 rs2, BitVec.allOnes 64,
          fun i => if i = k % 64 then (x.sreg rs1).toNat else lane 32 (x.vreg vd) i),
        (.vsel c vd vs1 vs2 msk, BitVec.allOnes 64, fun i => if m.getLsbD i then a i else b i)],
      exec p.1 s = .next (s.lanesDone c 0 vd p.2.1 p.2.2)) ∧
    (∀ p ∈ [(Instr.vredsum c ty vd vs1 msk, Red.sum), (.vredmax c ty vd vs1 msk, .max), (.vredmin c ty vd vs1 msk, .min)],
      ty ≠ 3 → exec p.1 s = .next (s.lanesDone c ty vd (BitVec.allOnes 64) fun _ => p.2.value ty m (x.vreg vs1))) ∧
    (exec (.vcvt c kind vd vs1 msk) s = .next
      (if kind.toNat ≤ 6 then s.done c fun y => y.setV vd (convert kind.toNat m (x.vreg vd) (x.vreg vs1))
       else s.trapped c 0x01 ((wordV 0x22 0 0 msk kind vs1 vd).setWidth 64)))

/-- From Table 5-12: VEXT, MFM and MTM between the register files, and the mask logic; m0 and s0 take no write and read as all
ones and 0. -/
def Obligations.MaskAndElementMoves : Prop :=
  ∀ (s : State) (c : CoreId) (rd vs1 rs1 rs2 : BitVec 5) (md m1 m2 : BitVec 3), s.ready c →
    let x := s.core c
    let e : Word := (x.vreg vs1).extractLsb' (32 * ((x.sreg rs2).toNat % 64)) 32
    exec (.vext c rd vs1 rs2) s = .next (s.done c fun y => y.setS rd (e.signExtend 64)) ∧
    exec (.mfm c rd m1) s = .next (s.done c fun y => y.setS rd (if m1 = 0 then BitVec.allOnes 64 else x.m.get 0 m1.toNat)) ∧
    exec (.mtm c md rs1) s = .next (s.done c fun y => y.setM md (x.sreg rs1)) ∧
    ∀ p ∈ [(Instr.mand c md m1 m2, x.mreg m1 &&& x.mreg m2), (.mor c md m1 m2, x.mreg m1 ||| x.mreg m2),
        (.mxor c md m1 m2, x.mreg m1 ^^^ x.mreg m2), (.mandn c md m1 m2, x.mreg m1 &&& ~~~x.mreg m2)],
      exec p.1 s = .next (s.done c fun y => y.setM md p.2)

/-- From R324: where the enabled stripes of a tile have an aligned power of two of banks each and share none, the words of its
scratchpad are interleaved without overlap: two offsets in different 64-byte words name different bank words. -/
def Obligations.StripesInterleave : Prop :=
  ∀ (s : State) (n o o' : Nat), s.stripesOk n → o < 2 ^ 20 → o' < 2 ^ 20 → s.spWord n o = s.spWord n o' → o / 64 = o' / 64

/-- From R152, R204 and R205: IFLUSH, once no posted store of the core is outstanding, empties its instruction cache; PHASE
writes the phase register; YIELD stops issue, and the end of its cycles lets the core go on. -/
def Obligations.CoreControlInstructions : Prop :=
  ∀ (s : State) (c : CoreId) (k : Fin 16), s.ready c →
    (s.posted c = 0 → exec (.iflush c) s = .next (s.done c fun x => { x with icache := [] })) ∧
    exec (.phase c k) s = .next (s.done c fun x => { x with phase := BitVec.ofNat 64 k }) ∧
    exec (.yield c k) s = .next (s.modCore c fun x => { x.fetched with wait := .yield k }) ∧
    exec (.yieldEnd c) (s.modCore c fun x => { x.fetched with wait := .yield k }) = .next (s.done c id)

/-- From R179, R183 to R192 and Table 6-2: a descriptor instruction whose descriptor is read and judged without fault, with room
in its queue, enters its operation with the next issue number; MSCRUB and ACC.FLUSH take theirs from s[rs1]. -/
def Obligations.EngineInstructionsDispatch : Prop :=
  ∀ (s : State) (n : Fin 144) (rs1 : BitVec 5), s.ready (.tile n) →
    let c := CoreId.tile n
    let a := (s.core c).sreg rs1
    let d := s.descrBytes n a
    let t := s.tile n
    let q := s.spAddr n (leAt d 28 4)
    let e := s.descrBytes n (BitVec.ofNat 64 q)
    let nel := t.issuedNelem.get 0 (leAt d 1 1)
    let feed := fun (k : FKind) => Host.Outcome.next (φ := Fault) (ρ := Refusal) (s.live fun _ => s.dispatched n fun i t =>
      { t with feeder := t.feeder ++ [{ seq := i, addr := a, kind := k }] })
    let buck := fun (k : BKind) => Host.Outcome.next (φ := Fault) (ρ := Refusal) (s.live fun _ => s.dispatched n fun i t =>
      { t with bucker := t.bucker ++ [{ seq := i, addr := a, kind := k }] })
    (s.descrAt n a 0x01 → s.mloadOk n d = true → t.feeder.length < 2 → exec (.mload c rs1) s = feed (.mload d)) ∧
    (s.descrAt n a 0x02 → mrunOk d = true → t.feeder.length < 2 → exec (.mrun c rs1) s = feed (.mrun d)) ∧
    (t.feeder.length < 2 → exec (.mscrub c rs1) s = feed (.mscrub (a.toNat % 16) (a.toNat / 16 % 32))) ∧
    (s.descrAt n a 0x03 → accOpenOk d = true → t.bucker.length < 4 → exec (.accOpen c rs1) s =
      .next (s.live fun _ => s.dispatched n fun i t =>
        { t with issuedNelem := t.issuedNelem.set 0 (leAt d 1 1) (leAt d 4 2),
                 bucker := t.bucker ++ [{ seq := i, addr := a, kind := .open d }] })) ∧
    (s.descrAt n a 0x04 → s.accCloseOk n d nel = true → t.bucker.length < 4 → leAt d 2 1 / 16 % 4 ≠ 2 →
      exec (.accClose c rs1) s = buck (.close d [])) ∧
    (s.descrAt n a 0x04 → s.accCloseOk n d nel = true → t.bucker.length < 4 → leAt d 2 1 / 16 % 4 = 2 → q < 2 ^ 64 →
      s.descrAt n (BitVec.ofNat 64 q) 0x06 → qoutOk e (some nel) = true → t.chipper.length < 2 →
      exec (.accClose c rs1) s = .next (s.live fun _ => s.dispatched n fun i t =>
        { t with bucker := t.bucker ++ [{ seq := i, addr := a, kind := .close d e }],
                 chipper := t.chipper ++ [{ seq := i, addr := BitVec.ofNat 64 q, desc := e, fromClose := true }] })) ∧
    (t.bucker.length < 4 → exec (.accFlush c rs1) s = buck (.flush (a.toNat % 64))) ∧
    (s.descrAt n a 0x05 → accStatOk d = true → t.bucker.length < 4 → exec (.accStat c rs1) s = buck (.stat d)) ∧
    (s.descrAt n a 0x06 → qoutOk d none = true → t.chipper.length < 2 → exec (.qout c rs1) s =
      .next (s.live fun _ => s.dispatched n fun i t =>
        { t with chipper := t.chipper ++ [{ seq := i, addr := a, desc := d }] }))

/-- From R102 and R178: a tensor, accumulation, quantise, scratchpad, full/empty or DMA instruction raises 0x01 on a Ranger core,
with its word as tval; BAR completes there at once. -/
def Obligations.TileInstructionsTrapOnRanger : Prop :=
  ∀ (s : State) (k : Fin 4) (rd rs1 rs2 : BitVec 5) (mode : BitVec 2) (sc : Bool) (q b : Fin 8),
    let c := CoreId.ranger k
    let i := if sc then 1 else 0
    s.ready c →
    (∀ p ∈ [(Instr.mload c rs1, wordT 0x28 0 0 0 rs1 0), (.mrun c rs1, wordT 0x28 1 0 0 rs1 0),
        (.mscrub c rs1, wordT 0x28 2 0 0 rs1 0), (.accOpen c rs1, wordT 0x29 0 0 0 rs1 0),
        (.accClose c rs1, wordT 0x29 1 0 0 rs1 0), (.accFlush c rs1, wordT 0x29 2 0 0 rs1 0),
        (.accStat c rs1, wordT 0x29 3 0 0 rs1 0), (.accPeek c rd rs1 rs2, wordT 0x29 4 0 rs2 rs1 rd),
        (.qout c rs1, wordT 0x29 8 0 0 rs1 0), (.spFill c rd rs1 rs2, wordT 0x2A 0 0 rs2 rs1 rd),
        (.spCopy c rd rs1 rs2 mode, wordT 0x2A 1 mode.toNat rs2 rs1 rd), (.feWrite c sc rs1 rs2, wordT 0x2A 8 i rs2 rs1 0),
        (.feRead c sc rd rs1, wordT 0x2A 9 i 0 rs1 rd), (.fePeek c sc rd rs1 rs2, wordT 0x2A 10 i rs2 rs1 rd),
        (.feSet c rs1 rs2, wordT 0x2A 11 0 rs2 rs1 0), (.feClear c rs1 rs2, wordT 0x2A 12 0 rs2 rs1 0),
        (.dmaPost c rd rs1 q, wordT 0x2C 0 q 0 rs1 rd), (.dmaWait c rs1 q, wordT 0x2C 1 q 0 rs1 0)],
      exec p.1 s = .next (s.trapped c 0x01 (p.2.setWidth 64))) ∧
    exec (.bar c b) s = .next (s.done c id)

/-- From R191 and R308: ACC.PEEK of an open group, once every earlier operation on the group is done, reads the running sum of
the element, zero-extended; without status.DBG it raises 0x01. -/
def Obligations.AccPeekReadsRunningSum : Prop :=
  ∀ (s : State) (n : Fin 144) (rd rs1 rs2 : BitVec 5), s.ready (.tile n) →
    let c := CoreId.tile n
    let x := s.core c
    let t := s.tile n
    let g := (x.sreg rs1).toNat % 64
    let gr := t.groups.get {} g
    let e := (x.sreg rs2).toNat
    (x.dbg = false → exec (.accPeek c rd rs1 rs2) s = .next (s.trapped c 0x01 ((wordT 0x29 4 0 rs2 rs1 rd).setWidth 64))) ∧
    (x.dbg = true → t.mrunBefore g t.issue = false → t.bopBefore g t.issue = false → gr.isOpen = true → e < gr.nelem →
      exec (.accPeek c rd rs1 rs2) s =
        .next (s.done c fun y => y.setS rd ((t.words.get 0 (gr.word e)).setWidth 64)))

/-- From R193 and R194: with none in the background, SP.FILL and SP.COPY of whole words that SEQ owns, in banks that nothing holds
back, start in the background, and the sequencer goes on. -/
def Obligations.ScratchpadBackgroundOperations : Prop :=
  ∀ (s : State) (n : Fin 144) (rd rs1 rs2 : BitVec 5) (mode : BitVec 2), s.ready (.tile n) →
    let c := CoreId.tile n
    let x := s.core c
    let len := (x.sreg rs2).toNat
    let a := x.sreg rs1
    let b := x.sreg rd
    let own := fun (y : Dword) => y.toNat % 64 = 0 ∧ s.ownRange n y len = some (y.toNat % 2 ^ 20) ∧
      ∀ i, i < len / 64 → s.seqStall n (s.spWord n (y.toNat % 2 ^ 20 + 64 * i)) = false ∧
        s.ownerOf n (s.spWord n (y.toNat % 2 ^ 20 + 64 * i)) = oSeq
    let starts := fun (o : SpOp) => Host.Outcome.next (φ := Fault) (ρ := Refusal)
      (s.modTile n fun t => { t with spop := some o, core := { t.core.fetched with pc := t.core.pc + 4 } })
    (s.tile n).spop = none → s.mapWhole n → len % 64 = 0 → 0 < len → own a →
    (exec (.spFill c rd rs1 rs2) s = starts ⟨a.toNat % 2 ^ 20, len, b.setWidth 32, none⟩) ∧
    (own b → exec (.spCopy c rd rs1 rs2 mode) s = starts ⟨b.toNat % 2 ^ 20, len, 0, some (a.toNat % 2 ^ 20, mode.toNat)⟩)

/-- From R193 and R338: a background SP.FILL that ends leaves every word of its range full of the pattern and free of error, the
tags as they were, and the tile free for the next one. -/
def Obligations.FillEnds : Prop :=
  ∀ (s : State) (n : Fin 144) (o : SpOp), s.life.off = false → (s.tile n).spop = some o → o.copy = none →
    (s.tile n).gb = [] →
    Does (.spOperationEnd n) s fun t =>
      (t.tile n).spop = none ∧ t.spTag = s.spTag ∧ t.regs = s.regs ∧
      (∀ i, i < o.len / 64 → let w := s.spWord n (o.dst + 64 * i)
        t.wordBytes n w = (List.replicate 16 (leBytes 4 o.fill.toNat)).flatten ∧ t.wmark n w = {})

/-- From R195 to R197: full/empty instructions of a tile on a slot of its own scratchpad.  FE.READ of a full slot takes the data
and leaves it empty; FE.WRITE of an empty slot stores the data and leaves it full; FE.PEEK reads data and tag; FE.SET and
FE.CLEAR write the tags of a row of slots.  Every other word and tag, the registers and the other cores stay. -/
def Obligations.FullEmptyOnOwnSlot : Prop :=
  ∀ (s : State) (n : Fin 144) (z o : Nat) (sc : Bool) (rd rs1 rs2 : BitVec 5), s.ready (.tile n) →
    let c := CoreId.tile n
    let x := s.core c
    let a := x.sreg rs1
    let w := s.spWord n o
    (z = 255 ∨ z = s.chipId) → o < 2 ^ 20 → o % 64 = 0 → a.toNat = z * 2 ^ 40 + 0x1000000000 + n * 2 ^ 20 + o →
    s.slotReach n o →
    let bytes := s.wordBytes n w
    let low := BitVec.ofNat 64 (leNat (bytes.take 8))
    let data := fun (y : Core) => if sc then y.setS rd low else y.setV rd (setFld (y.vreg rd) 511 0 (leNat bytes))
    let moved := fun (t : State) (f : Core → Core) => t.core c = { f x.fetched with pc := x.pc + 4 } ∧ t.regs = s.regs ∧
      t.hbm = s.hbm ∧ ∀ d, d ≠ c → t.core d = s.core d
    let tags := fun (t : State) (full : Bool) => t.tag n w = full ∧
      ∀ m v, m * 16384 + v ≠ n * 16384 + w → t.tag m v = s.tag m v
    (s.tag n w = true → Does (.feRead c sc rd rs1) s fun t => moved t data ∧ tags t false ∧ t.spad = s.spad) ∧
    (s.tag n w = false → Does (.feWrite c sc rs1 rs2) s fun t => moved t id ∧ tags t true ∧
      t.wordBytes n w = (if sc then leBytes 8 (x.sreg rs2).toNat ++ bytes.drop 8 else leBytes 64 (x.vreg rs2).toNat) ∧
      ∀ m v, m * 16384 + v ≠ n * 16384 + w → t.wordBytes m v = s.wordBytes m v) ∧
    Does (.fePeek c sc rd rs1 rs2) s (fun t => tags t (s.tag n w) ∧ t.spad = s.spad ∧
      moved t fun y => (data y).setS rs2 (if s.tag n w then 1 else 0)) ∧
    (let k := max (x.sreg rs2).toNat 1
     o + 64 * k ≤ 2 ^ 20 → (∀ i, i < k → s.slotReach n (o + 64 * i)) →
     let marks := fun (t : State) (full : Bool) => moved t id ∧ t.spad = s.spad ∧ ∀ m v,
       ((∃ i, i < k ∧ m * 16384 + v = n * 16384 + s.spWord n (o + 64 * i)) → t.tag m v = full) ∧
       ((∀ i, i < k → m * 16384 + v ≠ n * 16384 + s.spWord n (o + 64 * i)) → t.tag m v = s.tag m v)
     Does (.feSet c rs1 rs2) s (marks · true) ∧ Does (.feClear c rs1 rs2) s (marks · false))

/-- From R196, R203, R217 and R219: an FE.READ of an empty own slot, and an FE.WRITE of a full one, waits in the tile's list with
the limit in force; the retry of one that found the list full, once the slot is ready; and the expiry of a wait, which
raises 0x0C or 0x0D; a wait without a limit does not expire. -/
def Obligations.WaitsAndTimeouts : Prop :=
  ∀ (s : State) (n : Fin 144) (sc : Bool) (rd rs1 rs2 : BitVec 5) (g b q lim : Nat) (mask : Dword) (all : Bool) (tgt : Word),
    let c := CoreId.tile n
    let x := s.core c
    let o := g % 2 ^ 20
    let w := s.spWord n o
    let own := g % 64 = 0 ∧ g < 2 ^ 48 ∧ s.localAddr g = some (0x1000000000 + n * 2 ^ 20 + o) ∧ s.slotReach n o
    let dst := if sc then Dst.scalar rd 8 false else .slotV rd
    let stopped := fun (s : State) (code : Nat) (v : Dword) =>
      (s.modCore c fun x => { x with wait := .none }).precise c code v
    s.life.off = false →
    (s.ready c → (x.sreg rs1).toNat = g → own →
      let waits := fun (t : State) (d : Option (List Byte)) (dst : Dst) =>
        t.core c = { x.fetched with wait := .fe g d dst none false (s.rd (Reg.TILE n Reg.TILE_FE_TIMEOUT)).toNat } ∧
          (t.tile n).waiters = [{ agent := n, origin := .load, word := w, write := d, tag := none }] ∧ t.spad = s.spad ∧
          (∀ m v, t.tag m v = s.tag m v) ∧ ∀ d, d ≠ c → t.core d = s.core d
      (s.tag n w = false → Does (.feRead c sc rd rs1) s (waits · none dst)) ∧
      (s.tag n w = true → Does (.feWrite c sc rs1 rs2) s
        (waits · (some (if sc then leBytes 8 (x.sreg rs2).toNat else leBytes 64 (x.vreg rs2).toNat)) .none))) ∧
    (x.wait = .waitev mask all rd lim → exec (.waitTimeout n) s = .next (if lim = 0 then s else stopped s 0x0D mask)) ∧
    (x.wait = .dmaWait q tgt lim →
      exec (.waitTimeout n) s = .next (if lim = 0 then s else stopped s 0x0D (BitVec.ofNat 64 q))) ∧
    (x.wait = .bar b lim →
      exec (.waitTimeout n) s = .next (if lim = 0 then s else stopped (s.withdraw n) 0x0D (BitVec.ofNat 64 b))) ∧
    (x.wait = .fe g none dst none true lim → own → x.step = false → x.deferred = [] → x.stopReq = false →
      s.tag n w = true → Does (.feRetry n none) s fun t =>
        let bytes := s.wordBytes n w
        let y := if sc then x.setS rd (BitVec.ofNat 64 (leNat (bytes.take 8)))
          else x.setV rd (setFld (x.vreg rd) 511 0 (leNat bytes))
        t.core c = { y with pc := x.pc + 4, wait := .none } ∧ t.tag n w = false ∧ t.spad = s.spad ∧ t.regs = s.regs) ∧
    (x.wait = .fe g none dst none false lim →
      exec (.feTimeout n) s = .next (if lim = 0 then s else
        let here := match s.localAddr g with | some l => s.chipId * 2 ^ 40 + l | none => g
        stopped ((s.modTile n fun t =>
            { t with waiters := t.waiters.filter fun w => !(w.agent == n && w.origin == .load && w.tag.isNone) }).raise
          0x1020 n (here + 2 ^ 48 * fld x.taskid 15 0)) 0x0C (BitVec.ofNat 64 g)))

/-- From R200, R387 and R388: DMA.POST of a good descriptor to an enabled queue with room copies it into the ring, adds 1 to the
post count and writes the new count to s[rd]; DMA.WAIT goes on once the completion count has reached its operand, and
waits with the limit in force otherwise. -/
def Obligations.DmaPostAndWait : Prop :=
  ∀ (s : State) (n : Fin 144) (rd rs1 : BitVec 5) (q : Fin 8), s.ready (.tile n) →
    let c := CoreId.tile n
    let x := s.core c
    let a := x.sreg rs1
    let d := s.descrBytes n a
    let o := s.skEntry n q (s.skPost n q)
    let w := s.spWord n o
    (s.descrAt n a 0x10 → dmaOk d = true → s.skEn n q = true → s.skUsed n q < s.skSize n q → o < 2 ^ 20 →
      s.handoverHolds n w oSkid = false → s.ownerOf n w = oSkid → gbFind (s.tile n).gb w = none →
      Does (.dmaPost c rd rs1 q) s fun t =>
        t.wordBytes n w = d ∧ t.wmark n w = {} ∧ t.skPost n q = s.skPost n q + 1 ∧
        t.core c = { x.fetched.setS rd ((s.skPost n q + 1).setWidth 64) with pc := x.pc + 4 }) ∧
    (0 ≤ (s.skDone n q - a.setWidth 32).toInt → exec (.dmaWait c rs1 q) s = .next (s.done c id)) ∧
    ((s.skDone n q - a.setWidth 32).toInt < 0 → Does (.dmaWait c rs1 q) s fun t =>
      t.core c = { x.fetched with
        wait := .dmaWait q (a.setWidth 32) (s.rd (Reg.TILE n Reg.TILE_WAIT_TIMEOUT)).toNat })

/-- From R201 and R203: a BAR whose crew is complete with this arrival goes on and leaves no arrival behind; a BAR that is not
waits with its arrival counted.  A WAITEV that its event bits satisfy writes the masked bits to s[rd] and clears those
below bit 56; one that they do not satisfy waits. -/
def Obligations.BarrierAndEventWaits : Prop :=
  ∀ (s : State) (n : Fin 144) (b : Fin 8) (rd rs1 : BitVec 5) (all : Bool), s.ready (.tile n) →
    let c := CoreId.tile n
    let x := s.core c
    let key := x.crew * 8 + b
    let lim := (s.rd (Reg.TILE n Reg.TILE_WAIT_TIMEOUT)).toNat
    let mask := x.sreg rs1
    let v := s.eventBits c &&& mask.toNat
    (s.barriers.get [] key = [] → x.crewSize = 0 → Does (.bar c b) s fun t =>
      t.core c = { x.fetched with pc := x.pc + 4 } ∧ t.barriers.get [] key = []) ∧
    (s.barriers.get [] key = [] → x.crewSize ≠ 0 → Does (.bar c b) s fun t =>
      t.core c = { x.fetched with wait := .bar b lim } ∧ t.barriers.get [] key = [n.val]) ∧
    (evSatisfied (s.eventBits c) mask all = true → Does (.waitev c rd rs1 all) s fun t =>
      t.core c = { x.fetched.setS rd (BitVec.ofNat 64 v) with pc := x.pc + 4 } ∧
      ∀ i, i < 32 → (t.rd (Reg.TILE n Reg.TILE_EV_LO)).getLsbD i =
        ((s.rd (Reg.TILE n Reg.TILE_EV_LO)).getLsbD i && !mask.getLsbD i) ∧
        (i < 24 → (t.rd (Reg.TILE n Reg.TILE_EV_HI)).getLsbD i =
          ((s.rd (Reg.TILE n Reg.TILE_EV_HI)).getLsbD i && !mask.getLsbD (32 + i)))) ∧
    (evSatisfied (s.eventBits c) mask all = false → Does (.waitev c rd rs1 all) s fun t =>
      t.core c = { x.fetched with wait := .waitev mask all rd lim })

/-- A step takes the command at the front of the queue and runs it with the queue's rest. -/
def Obligations.StepTakesTheFrontCommand : Prop :=
  ∀ (c : Instr) (s : State) (rest : List Instr), s.pending = c :: rest → step s = exec c { s with pending := rest }

/-- On an empty queue a step passes 40 ns, in which the mesh clock counts 64 cycles while the chip has a supply; without
one nothing else happens.  The idle tick is the model's choice (log 1). -/
def Obligations.IdleStepPassesTime : Prop :=
  ∀ (s : State), s.pending = [] →
    ∃ t, step s = .next t ∧ t.pending = [] ∧ t.now = s.now + 40 ∧
      t.nclk = (if s.life.off then s.nclk else s.nclk + 64) ∧ (s.life.off = true → t = { s with now := s.now + 40 })

/-- Every command completes from every state and leaves the queue as it is; time and the mesh clock stand still, but for
those that bring the supply, after which both start at 0. -/
def Obligations.EveryCommandCompletes : Prop :=
  ∀ (c : Instr) (s : State), Does c s fun t =>
    t.pending = s.pending ∧
      (t.now = s.now ∧ t.nclk = s.nclk ∨ t.now = 0 ∧ t.nclk = 0 ∧ ∃ straps tag ms,
        c = .powerOnReset straps tag ∨ c = .trayInsert straps tag ∨ c = .buttonRelease 2 ms)

/-- Any number of steps from any state is a safe run: no fault and no refusal ever stops the chip, the commands leave the
queue first in, first out, one a step, and an empty queue stays empty. -/
def Obligations.QueueDrainsInOrder : Prop :=
  ∀ (n : Nat) (s : State), SafeRun n s ∧ ∀ t, Sys2Proof.core.run n s = .next t → t.pending = s.pending.drop n

/-- No step takes the clocks out of step with time. -/
def Obligations.ClocksStayInStep : Prop :=
  ∀ (s t : State), s.clocked → step s = .next t → t.clocked

/-- A chip without a supply takes no command: of all commands only those that bring the supply, and those of the RF side of
the Blaze tag, have any effect. -/
def Obligations.NothingHappensWithoutSupply : Prop :=
  ∀ (c : Instr) (s : State), s.life.off = true → c.unpowered = false → exec c s = .next s

/-- From R58 and R133: after power-on reset every Ranger core stands at the boot ROM in runtime
mode with EXC 0, every tile is IDLE with its stochastic generator at 0x5A5A5A, CLK_SSC, CLK_WDOG,
TALLY_COUNT, TALLY_LOST and CHIP_ID hold their reset values, no scratchpad or HBM byte is listed (the model's choice, log 5), no transaction is outstanding, and the clocks are in step
with time. -/
def Obligations.ResetState : Prop :=
  let s := State.reset
  (∀ k : Fin 4, let x := s.core (.ranger k)
    x.pc = 0x1E00100000 ∧ x.mode = true ∧ x.exc = false ∧ x.halted = false ∧ s.evec k = 0x1E00100000) ∧
  (∀ n : Fin 144, (s.tile n).core.task = .idle ∧ (s.tile n).lfsr = 0x5A5A5A) ∧
  s.rd Reg.CLK_SSC = 0xB ∧ s.rd Reg.CLK_WDOG = 0x07D00000 ∧ s.rd Reg.TALLY_COUNT = 0 ∧ s.rd Reg.TALLY_LOST = 0 ∧
  s.rd Reg.CHIP_ID = 0x000B0144 ∧ s.pending = [] ∧ s.spad = [] ∧ s.hbm = [] ∧ s.txns = [] ∧ s.memWf = true ∧ s.clocked

/-- From R4, R63, R69 to R75, R90 and R92: a served write of a scratch register stores the word, and an alias write changes
its bit alone; a write of an RO register changes no register; a read of the low half of the PTP clock latches the high half
for the reading agent; VOTE_CLR clears the repair count; a sweep repairs an upset of one copy of CLK_WDOG, counts it and
records where it was; an access to an unmapped offset is refused, recorded and reported. -/
def Obligations.RegisterAccesses : Prop :=
  ∀ (s : State) (a : Agent) (v : Word),
    (∀ i : Fin 4, let off := Reg.CHIP_SCRATCH0 + 4 * i.val
      s.serves a off →
      exec (.registerWrite a (BitVec.ofNat 23 off) v) s = .next { s.wr off v with votes := s.votes.clear (4 * off) 4 } ∧
      ∀ b : BitVec 5, exec (.aliasWrite a (BitVec.ofNat 23 off) b v) s =
        .next { s.wr off (setFld (s.rd off) b.toNat b.toNat (b2n (v.getLsbD 0))) with votes := s.votes.clear (4 * off) 4 }) ∧
    (s.serves a Reg.CHIP_ID → Does (.registerWrite a (BitVec.ofNat 23 Reg.CHIP_ID) v) s fun t =>
      s.regsBut t [] ∧ t = { s with regs := t.regs, votes := t.votes }) ∧
    (s.serves a Reg.TIME_NOW_LO → exec (.counterLowRead a (BitVec.ofNat 23 Reg.TIME_NOW_LO)) s =
      .next { s with latches := s.latches.set 0 (a.index * 8) (BitVec.ofNat 32 (s.timeNow / 2 ^ 32)) }) ∧
    (s.serves a Reg.CHIP_CTRL →
      Does (.voteClr a) s (fun t => t.rd Reg.CHIP_VOTE_CNT = 0 ∧ s.regsBut t [Reg.CHIP_VOTE_CNT] ∧
        t = { s with regs := t.regs, votes := t.votes }) ∧
      (s.votes = [] → s.voteFirst = none → Does (.sweepNow a) s fun t =>
        t.rd Reg.CHIP_VOTE_SWEEP = s.rd Reg.CHIP_VOTE_SWEEP + 1 ∧ s.regsBut t [Reg.CHIP_VOTE_SWEEP])) ∧
    (s.life.off = false → s.votes = [] → s.voteFirst = none → ∀ (c : Fin 3) (b : Fin 32), b = 0 ∨ 16 ≤ b →
      Does (.voteSweep ⟨[⟨BitVec.ofNat 23 Reg.CLK_WDOG, c, BitVec.ofNat 32 (2 ^ b.val)⟩], []⟩) s fun t =>
        t.rd Reg.CHIP_VOTE_CNT = satInc (s.rd Reg.CHIP_VOTE_CNT) ∧ t.bit (0x010000 + Reg.CFG_STAT) 3 = true ∧
        t.rd Reg.CHIP_VOTE_LAST = BitVec.ofNat 32 (Reg.CLK_WDOG + 2 ^ 23 * b.val + 2 ^ 28 * 2 ^ c.val + 2 ^ 31) ∧
        t.voteFirst = some (Reg.CLK_WDOG, b.val) ∧ t.votes = [] ∧ t.rd Reg.CLK_WDOG = s.rd Reg.CLK_WDOG) ∧
    (∀ off : BitVec 23, off.toNat % 4 = 0 → locate off.toNat = none → a.coreId = none → s.life.off = false →
      Does (.registerWrite a off v) s fun t =>
        t.rd Reg.CHIP_BADACC = BitVec.ofNat 32 (off.toNat + 2 ^ 23 + 2 ^ 25 + 2 ^ 31) ∧
        s.logged t 0x2020 a.index (off.toNat + 2 ^ 23 + 2 ^ 25) ∧
        s.regsBut t [Reg.CHIP_BADACC, Reg.TALLY_COUNT, Reg.TALLY_LOST])

/-- From R588, R33, R602: power-on reset, and the insertion of a tray that was off, give the chip its supply and empty every volatile
memory, while the flash keeps its contents.  R589: a tray reset asserts main reset now: the Ranger cores stand at the boot
ROM, no transaction is left, and chip 0's island drives TRST_N.  R598: a boot step over its limit fails the boot.
R591 to R593, R405, R758: arming the Ranger watchdog, and a kick of its code, start it again, and any other kick counts as missed;
its expiry asks for a tray reset; the Scaler watchdog's expiry restarts the Scaler in resume mode and nothing else;
CLK_SRST resets Ranger cores and the Landing block, CLK_TRST tiles, and restarts the intervals of their limited events: the
scratchpads and macros stay. -/
def Obligations.ResetsAndWatchdogs : Prop :=
  (∀ (s : State) (straps : BitVec 9) (tag : Bool),
     Does (.powerOnReset straps tag) s (fun t =>
       t.life.off = false ∧ t.spad = [] ∧ t.hbm = [] ∧ t.txns = [] ∧ t.streams = [] ∧ t.flash = s.flash ∧
         ∀ k, t.core (.ranger k) = { Core.rangerReset with cycle0 := 0 }) ∧
     (s.life.off = true → Does (.trayInsert straps tag) s fun t =>
       t.life.off = false ∧ t.spad = [] ∧ t.hbm = [] ∧ t.txns = [] ∧ t.streams = [] ∧ t.flash = s.flash) ∧
     (s.pinIs 22 1 = false → ∀ cause : Fin 5, exec (.trayReset cause tag) s = .next s) ∧
     (s.life.off = false → s.pinIs 22 1 = true → ∀ cause : Fin 5, Does (.trayReset cause tag) s fun t =>
       t.life.t0 = s.now ∧ t.txns = [] ∧ t.streams = [] ∧ t.flash = s.flash ∧
         (∀ k, t.core (.ranger k) = { Core.rangerReset with cycle0 := s.nclk }) ∧
         (s.pos = 0 → Msg.trayReset (trayCause cause) ∈ t.out)) ∧
     (∀ step : Fin 13, s.life.off = false → s.lf = lfBoot → s.life.failed = false → Does (.bootStepTimeout step) s fun t =>
       t.life.failed = true ∧ t.bit Reg.RANGER_SVC 5 = true ∧ t.txns = [] ∧ t.links = [] ∧ t.streams = [] ∧ t.flash = s.flash ∧
         t.hbm = s.hbm ∧ ∀ c, t.coreRuns c = false)) ∧
  (∀ (s : State) (a : Agent) (v : Word),
     (s.serves a Reg.CLK_WDOG → s.bit Reg.CLK_WDOG 0 = false → 100 ≤ fld v 31 16 → Does (.watchdogArm a v) s fun t =>
       t.bit Reg.CLK_WDOG 0 = true ∧ t.getF Reg.CLK_WDOG 31 16 = fld v 31 16 ∧ s.regsBut t [Reg.CLK_WDOG] ∧
         t.life = { s.life with missed := 0, wdogAt := s.now, wdogPeriod := fld v 31 16 }) ∧
     (s.serves a Reg.CLK_WDOG_KICK → s.bit Reg.CLK_WDOG 0 = true → Does (.wdogKick a v) s fun t =>
       s.regsBut t [] ∧
         t.life = (if fld v 15 0 = 0x0D06 then
             { s.life with missed := 0, wdogAt := s.now, wdogPeriod := s.getF Reg.CLK_WDOG 31 16 }
           else { s.life with missed := s.life.missed + 1 })) ∧
     (s.life.off = false → s.bit Reg.CLK_WDOG 0 = true → s.torn Reg.CLK_WDOG = false → (s.pos = 0 → s.pinIs 22 1 = true) →
       Does .watchdogExpiry s fun t =>
       Msg.trayReset rcWdog ∈ t.out ∧ (s.pos = 0 → t.life.t0 = s.now ∧ t.txns = [])) ∧
     (s.serves a Reg.CLK_SWDOG → Does (.swdogKick a v) s fun t =>
       s.regsBut t [] ∧ t.life = { s.life with swdogAt := s.now }) ∧
     (s.life.off = false → Does .scalerWatchdogExpiry s fun t =>
       t.life = { s.life with resumeMode := true, swdogAt := s.now } ∧ t.bit Reg.CLK_RST_CAUSE rcSwdog = true ∧
         s.logged t 0x5205 0 0 ∧ s.regsBut t [Reg.CLK_RST_CAUSE, Reg.TALLY_COUNT, Reg.TALLY_LOST] ∧ t.tiles = s.tiles ∧
         t.rangers = s.rangers ∧ t.txns = s.txns ∧ t.hbm = s.hbm ∧ t.spad = s.spad) ∧
     (s.serves a Reg.CLK_SRST →
       (∀ k : Fin 4, k ≠ 0 → Does (.softReset a (BitVec.ofNat 32 (2 ^ (k.val + 2)))) s fun t =>
         t.core (.ranger k) = { Core.rangerReset with pc := s.evec k, cycle0 := s.nclk } ∧
           (∀ d, d ≠ .ranger k → t.core d = s.core d) ∧ t.bit Reg.CLK_RST_CAUSE 9 = true ∧
           s.regsBut t [Reg.CLK_RST_CAUSE] ∧ t.hbm = s.hbm ∧ t.spad = s.spad ∧ t.txns = s.txns) ∧
       Does (.softReset a 4) s (fun t =>
         t.streams = [] ∧ (∀ off, 0x500000 ≤ off → off < 0x510000 → t.rd off = regReset off) ∧
           (∀ d, t.core d = s.core d) ∧ t.hbm = s.hbm ∧ t.spad = s.spad)) ∧
     (∀ n : Fin 144, s.serves a (Reg.CLK_TRST (n.val / 32)) → (s.tile n).regQ = [] →
       Does (.tileReset a ⟨n.val / 32, by omega⟩ (BitVec.ofNat 32 (2 ^ (n.val % 32)))) s fun t =>
         (t.tile n).core = { cycle0 := s.tclkOf n } ∧ (t.tile n).groups = [] ∧ (t.tile n).gb = [] ∧
           (t.tile n).feeder = [] ∧ (t.tile n).bucker = [] ∧ (t.tile n).chipper = [] ∧
           t.rd (Reg.TILE n Reg.TILE_TASK_ID) = 0 ∧ t.bit Reg.CLK_RST_CAUSE 9 = true ∧
           (∀ code ∈ tileLimited, t.limits.get {} (code * 256 + n) = {}) ∧
           (∀ m : Fin 144, m ≠ n → (t.tile m).core = s.core (.tile m)) ∧ t.mrow = s.mrow ∧ t.spad = s.spad))

/-- From R596, R597, R750: a count of the 100 MHz reference outside 99.9 to 100.1 MHz takes the reference for lost, and its return
asks for a tray reset; a TCLK PLL that loses lock forces its running quadrant to OP0, any other PLL asks for a tray reset;
the last spread PLL that starts a modulation period brings CLK_SSC into force.  R21 to R34, R599, R605 to R609: chip 0's
island reads the inlets and fans, and two slow fans or an inlet above +70 °C power the tray down; a wake source is recognised
while the tray is retained or retaining; loss of input, and withdrawal, shed load, ride-through restores it, and 10 ms
without input turn the rails off; a rail that fails while the tray retains is reported. -/
def Obligations.ReferencesEnvelopeAndSupply : Prop :=
  (∀ (s : State), s.life.off = false →
     (∀ khz : Word, s.life.refLost = false →
       (99900 ≤ khz.toNat ∧ khz.toNat ≤ 100100 → exec (.referenceCheck khz) s = .next (s.setBit Reg.CLK_REF 0 true)) ∧
       (khz.toNat < 99900 ∨ 100100 < khz.toNat → Does (.referenceCheck khz) s fun t =>
         t.life = { s.life with refLost := true } ∧ t.bit Reg.CLK_REF 0 = false ∧
           t.getF Reg.CLK_REF 31 16 = min (s.getF Reg.CLK_REF 31 16 + 1) 65535)) ∧
     (s.life.refLost = true → (s.pos = 0 → s.pinIs 22 1 = true) → Does .referenceReturn s fun t =>
       Msg.trayReset rcRef ∈ t.out ∧ t.life.refLost = false ∧ (s.pos = 0 → t.life.t0 = s.now)) ∧
     (∀ q : Fin 4, Does (.pllLockLoss ⟨q.val, by omega⟩) s fun t =>
       t.bit Reg.CLK_LOCK q = false ∧ t.life = s.life ∧
         (s.qstate q = 0 → (t.quad q).pllHold = true ∧ t.getF (Reg.PWR_Q_STAT q) 7 4 = 0)) ∧
     (∀ p : Fin 6, 4 ≤ p.val → (s.pos = 0 → s.pinIs 22 1 = true) → Does (.pllLockLoss p) s fun t =>
       Msg.trayReset rcPll ∈ t.out) ∧
     (∀ p : Fin 5, s.votes = [] → s.life.sscWait = BitVec.ofNat 5 (2 ^ p.val) → exec (.sscApply p) s =
       .next (((s.modLife fun l => { l with sscWait := 0 }).apply Reg.CLK_SSC).clearPend 0x010000 1))) ∧
  (∀ (s : State), s.life.off = false →
     (∀ (t0 t1 : Option (BitVec 12)) fans, s.pos ≠ 0 → exec (.envelopeReading t0 t1 fans []) s = .next s ∧
       ∀ (cap floor : BitVec 8) (w : BitVec 16) rest, Does (.envelopeReading t0 t1 fans ((cap, floor, w) :: rest)) s fun t =>
         t.getF Reg.PWR_CAP 7 0 = min cap.toNat (s.getF Reg.PWR_CAP 7 0) ∧ s.regsBut t [Reg.PWR_CAP]) ∧
     (∀ (t0 t1 : BitVec 12) (fans : List (BitVec 8 × BitVec 16 × Bool)) peers, s.pos = 0 → s.lf = lfRun → fans.length = 4 →
       1120 < t0.toInt ∧ t0.toInt ≤ 1600 ∨ (∃ (i j : Nat) (c d : BitVec 8) (r u : BitVec 16), i < j ∧ fans[i]? = some (c, r, true) ∧ fans[j]? = some (d, u, true)) →
       -640 ≤ t1.toInt ∧ t1.toInt ≤ 1600 →
       Does (.envelopeReading (some t0) (some t1) fans peers) s fun t =>
         t.lf = lfPowerdown ∧ t.lfStep = 1 ∧ t.life.kind = 4 ∧ t.life.t0 = s.now ∧ t.svState = svStopping) ∧
     (∀ i : Fin 2, s.pos = 0 → exec (.inletSensorInvalid i) s = .next (s.setBit Reg.MGMT_INLET (12 + 16 * i.val) false)) ∧
     (∀ src : Fin 5, s.wakeHolds src = true →
       (s.lf = lfRetaining → s.life.wake = none →
         exec (.retentionWake src) s = .next (s.modLife fun l => { l with wake := some src.val })) ∧
       (s.lf = lfRetained → s.pos ≠ 0 → Does (.retentionWake src) s fun t => t.lf = lfWaking ∧ t.lfStep = 4)) ∧
     (∀ v : BitVec 16, s.lf = lfRun → s.pinIs 23 1 = true → Does (.inputLoss v) s fun t =>
       t.lf = lfInputLoss ∧ t.lfStep = 4 ∧ t.life.shed = true ∧ t.life.t0 = s.now ∧ t.panel.pse = false) ∧
     (s.lf = lfRun → s.pinIs 23 1 = true → Does .trayWithdraw s fun t =>
       t.lf = lfInputLoss ∧ t.lfStep = 4 ∧ t.life.shed = true ∧ t.life.t0 = s.now ∧ t.draws = s.draws + 1) ∧
     (s.lf = lfInputLoss → s.pos ≠ 0 → s.life.streams = [] → s.life.pse = false →
       exec .rideThrough s = .next (((s.modLife fun l => { l with shed := false, streams := [], fans := [] }).wr Reg.CLK_LIFE
         s.life.before).raise 0x5211 0 ((s.now - s.life.t0) / 1000 % 2 ^ 32))) ∧
     (s.lf = lfInputLoss → Does .inputLossTimeout s fun t =>
       t.life.off = true ∧ t.lf = lfInputLoss ∧ t.lfStep = 6 ∧ t.rd Reg.CLK_RAIL = 0 ∧ t.rd Reg.CLK_LOCK = 0 ∧
         Msg.inputOff ∈ t.out) ∧
     (s.lf = lfRetaining → s.pos ≠ 0 → s.bit Reg.CLK_RAIL 0 = true → ∀ k, exec (.railFailure 0 k) s =
       .next ((s.setBit Reg.CLK_RAIL 0 false).raise 0x5212 0 (s.lfStep + 16 *
         (s.life.hbmLost.toNat + 4 * b2n s.life.macLost + 8 * b2n s.life.dirty)))))

/-- From R114 to R117, R119 to R121 and R111: GO on an IDLE, HALTED or STOPPED tile launches the task that the TILE registers
give; GO with RESUME continues a STOPPED one; STOP ends a running task with cause 0x23; the end of DRAINING gives HALTED or
STOPPED with its notice; a deferred exception is taken at the next boundary; the data of a load goes to its register. -/
def Obligations.TaskControl : Prop :=
  ∀ (s : State) (a : Agent) (n : Fin 144) (v : Word),
    let x := s.core (.tile n)
    (s.serves a (Reg.TILE n Reg.TILE_TASK_CTRL) → s.gated n = false → s.cap.hold = false →
      (x.task = .idle ∨ x.task = .halted ∨ x.task = .stopped → Does (.taskGo a n v) s fun t =>
        let y := t.core (.tile n)
        y.task = .running ∧ y.pc = BitVec.ofNat 64 (s.rd64 (Reg.TILE n Reg.TILE_TASK_PC_LO)) ∧
          (∀ r : BitVec 5, y.sreg r = if 1 ≤ r.toNat ∧ r.toNat ≤ 4 then
            BitVec.ofNat 64 (s.rd64 (Reg.TILE n (Reg.TILE_TASK_ARG (r.toNat - 1)))) else 0) ∧
          y.status = (if v.getLsbD 3 then 0x40 else 0) ∧ y.wait = .none ∧ y.cause = 0 ∧ y.phase = 0 ∧
          (t.tile n).groups = [] ∧ (t.tile n).notify = v.extractLsb' 4 2 ∧ (∀ m : Fin 144, m ≠ n → t.tile m = s.tile m)) ∧
      (x.task = .stopped → Does (.taskResume a n v) s fun t =>
        t.core (.tile n) = { x with pc := BitVec.ofNat 64 (s.rd64 (Reg.TILE n Reg.TILE_TASK_PC_LO)), cause := 0, epc := 0,
                                    tval := 0, task := .running, wait := .none, stopReq := false, deferred := [] } ∧
          (t.tile n).groups = (s.tile n).groups ∧ (t.tile n).words = (s.tile n).words ∧
          (∀ m : Fin 144, m ≠ n → t.tile m = s.tile m))) ∧
    (s.serves a (Reg.TILE n Reg.TILE_TASK_CTRL) → s.ready (.tile n) → Does (.taskStop a n v) s fun t =>
      t.core (.tile n) = { x with cause := 0x23, epc := x.pc, tval := 0, task := .draining } ∧ (t.tile n).exit = none ∧
        (∀ m : Fin 144, m ≠ n → t.tile m = s.tile m)) ∧
    (s.life.off = false → x.task = .draining → s.drained n = true →
      let k := (s.tile n).notify.toNat
      let q := s.notices.get [] k
      q.length < 512 →
      (∀ e, (s.tile n).exit = some e → Does (.taskDrainComplete n) s fun t =>
        t.core (.tile n) = { x with task := .halted } ∧ t.getF (Reg.TILE n Reg.TILE_TASK_STAT) 15 4 = e.toNat ∧
          t.notices.get [] k = q ++ [n.val] ∧ s.regsBut t [Reg.TILE n Reg.TILE_TASK_STAT]) ∧
      ((s.tile n).exit = none → Does (.taskDrainComplete n) s fun t =>
        t.core (.tile n) = { x with task := .stopped } ∧ t.notices.get [] k = q ++ [n.val + 256] ∧
          s.logged t 0x1001 n (x.cause.toNat % 2 ^ 16 + 2 ^ 16 * (x.epc.toNat % 2 ^ 48)))) ∧
    (∀ (code : BitVec 6) (e : BitVec 4) (u : BitVec 16) (tv : Dword), s.ready (.tile n) →
      deferredCodes.contains code.toNat = true →
      exec (.deferredExceptionReport (.tile n) code e u tv) s = .next (s.modTile n fun t => { t with
        exit := none, core := { x with cause := BitVec.ofNat 64 (code.toNat + 64 + 256 * e.toNat + 65536 * u.toNat),
                                       epc := x.pc, tval := tv, task := .draining } })) ∧
    (∀ (c : CoreId) (tag k addr : Nat) (rd : BitVec 5) (sg : Bool) (bs : List Byte) (full : Bool) (r : Txn),
      let y := s.core c
      s.life.off = false → y.deferred = [] → y.stopReq = false → y.step = false → s.closeNotes = [] →
      y.wait = .resp tag addr (.scalar rd k sg) → s.txn tag = some r → r.orphan = false → r.freed = false →
      r.origin = .load → coreOf r.agent = some c → r.st = .answered (.data bs false full) → bs.length = k → 0 < k →
      Does (.loadResponse c) s fun t =>
        t.core c = { y.setS rd (if sg then BitVec.ofInt 64 (sInt (8 * k) (leNat bs)) else BitVec.ofNat 64 (leNat bs)) with
          pc := y.pc + 4, wait := .none } ∧ t.txn tag = none)

/-- From R184 to R192, R263, R267 to R275, R285 to R290, R303 to R307: on a tile with no other engine operation at work, the one
pass of an MRUN enters its group's sums in channel order; an MLOAD fills its codebook slot; an ACC.CLOSE with DEST 2 hands
the running sums to the Chipper and frees the group; a QOUT writes the codes and scales of its row; an ACC.STAT writes count,
mean and M2; an MSCRUB corrects a flipped cell. -/
def Obligations.EngineOperationsEnd : Prop :=
  ∀ (s : State) (n : Fin 144), s.life.off = false → s.bit (Reg.TILE n Reg.PEND) 2 = false →
    let t := s.tile n
    t.feeder = [] → t.handovers = [] →
    (∀ (m : Fin 16) (o : FOp) (d : List Byte),
      let g := t.groups.get {} (leAt d 12 1)
      let rc := s.rg n m (leAt d 8 1)
      let base := leAt d 40 4
      let a := leAt d 16 4 % 2 ^ 20
      let r := s.runPass n m (leAt d 8 1) rc.w rc.group (expandInputs d {} (s.portBytes n a (inputBytes d))) none
      let x := (List.range rc.nch).foldl (fun (x : Tile) c =>
        x.applyPass (leAt d 12 1) (base + c) (passValue (r.sums.getD c []) (rc.chanScales c) [])) t
      t.loads = [o] → t.bucker = [] → t.chipper = [] → o.kind = .mrun d → o.started = true → o.prog = [] → o.done = [] →
      o.next = 0 → mrunMacros d = [m.val] → leAt d 9 1 = 1 → leAt d 10 2 = 1 → mrunSlot d = none →
      rc.w ≠ 0 → rc.w = leAt d 4 1 % 16 → rc.group = leAt d 7 1 % 4 → 0 < rc.nch → base + rc.nch ≤ g.nelem →
      rc.scales ≠ none → s.healthOf n m (leAt d 8 1) = rgGood → (leAt d 1 1).testBit 3 = true →
      s.portReach n oFeed a (inputBytes d) → r.ok = true →
      Does (.passComplete n m none none) s fun u =>
        (u.tile n).words = x.words ∧ (u.tile n).passIdx = x.passIdx ∧ (u.tile n).lfsr = x.lfsr ∧ (u.tile n).loads = [] ∧
          s.regsBut u [] ∧ u.spad = s.spad ∧ ∀ c, u.core c = s.core c) ∧
    (∀ (k : Fin 8) (o : FOp) (d : List Byte) (a : Nat),
      let es := (List.range 16).map fun i => BitVec.ofNat 16 (leAt (s.portBytes n a 32) (2 * i) 2)
      let w := leAt d 4 1 % 16
      t.loads = [o] → t.bucker = [] → t.chipper = [] → o.kind = .mload d → leAt d 4 1 / 16 = modeTable →
      leAt d 1 1 % 16 = k.val → leAt d 8 8 % 2 ^ 40 = 0x1000000000 + n * 2 ^ 20 + a → s.portReach n oFeed a 32 →
      (∀ e ∈ es, -(2 ^ (w - 1) : Nat) ≤ e.toInt ∧ e.toInt < (2 ^ (w - 1) : Nat)) →
      Does (.mloadDone n ⟨16 + k.val, by omega⟩) s fun u =>
        (u.tile n).cb.get {} k.val = ⟨true, w, codebookQmax es, es⟩ ∧ (u.tile n).loads = [] ∧ s.regsBut u [] ∧
          (∀ j, j ≠ k.val → (u.tile n).cb.get {} j = t.cb.get {} j) ∧ ∀ c, u.core c = s.core c) ∧
    (∀ (o : BOp) (c : COp) (d q : List Byte),
      let i := leAt d 1 1
      let g := t.groups.get {} i
      let vals := (List.range g.nelem).map fun e => (t.words.get 0 (g.word e), (none : Option Nat))
      t.loads = [] → t.bucker = [{ o with kind := .close d q }] → t.chipper = [c] → c.fromClose = true → c.seq = o.seq →
      o.started = false → o.row = 0 → o.out = [] → o.values = [] → o.nonfinite = 0 → o.poisonAt = none → o.tag = none →
      leAt d 2 1 % 4 = 0 → leAt d 2 1 / 16 % 4 = 2 → leAt d 4 2 = g.nelem → 0 < g.nelem → g.isOpen = true →
      (∀ e, e < g.nelem → t.passIdx.get 0 (i * 16384 + e) = 0 ∧ t.epoison.get none (i * 16384 + e) = none ∧
        nonFinite (t.words.get 0 (g.word e)) = false) →
      Does (.accCloseEnd n) s fun u =>
        (u.tile n).bucker = [] ∧ (u.tile n).chipper = [{ c with values := some vals }] ∧ (u.tile n).groups.get {} i = {} ∧
          (∀ j, j ≠ i → (u.tile n).groups.get {} j = t.groups.get {} j) ∧ s.regsBut u [] ∧ ∀ c, u.core c = s.core c) ∧
    (∀ (o : COp) (d : List Byte) (vs : List Word) (w a b : Nat),
      let f := QFmt.int w (leAt d 2 1 / 32 % 4 == 0)
      let q := quantRow f d [] vs
      t.loads = [] → t.bucker = [] → t.chipper = [{ o with desc := d, values := some (vs.map fun x => (x, none)) }] →
      o.row = 0 → o.out = [] → o.late = [] → o.lateDone = false → o.sats = 0 → o.poisonAt = none → o.tag = none →
      leAt d 2 1 / 32 % 4 < 2 → leAt d 2 1 % 32 = w → leAt d 6 2 = vs.length → leAt d 8 4 = 1 → leAt d 5 1 % 4 = 0 →
      (leAt d 4 1).testBit 2 = false → s.chipId < 256 → leAt d 24 8 = s.spAddr n a → leAt d 32 8 = s.spAddr n b →
      s.portReach n oBuck a q.1.length → s.portReach n oBuck b q.2.1.length → s.spWord n a ≠ s.spWord n b →
      Does (.qoutEnd n) s fun u =>
        s.wrote u n a q.1 ∧ s.wrote u n b q.2.1 ∧ (u.tile n).chipper = [] ∧
          u.rd (Reg.TILE n Reg.TILE_SAT_CNT) = satAdd (s.rd (Reg.TILE n Reg.TILE_SAT_CNT)) q.2.2) ∧
    (∀ (o : BOp) (d : List Byte) (a b : Nat),
      let size := leAt d 2 2
      let xs := (List.range size).map fun i => BitVec.ofNat 32 (leAt (s.portBytes n a (4 * size)) (4 * i) 4)
      let r := statOf xs ((leAt d 1 1).testBit 2)
      t.loads = [] → t.bucker = [{ o with kind := .stat d }] → t.chipper = [] → o.row = 0 → o.poisonAt = none →
      (leAt d 1 1).testBit 0 = true → (leAt d 1 1).testBit 1 = false → leAt d 4 4 = 1 → leAt d 8 4 % 2 ^ 20 = a →
      leAt d 12 4 % 2 ^ 20 = b → s.portReach n oBuck a (4 * size) → s.portReach n oBuck b 16 →
      Does (.accStatEnd n) s fun u =>
        s.wrote u n b (leBytes 4 r.n ++ leBytes 4 r.mean.toNat ++ leBytes 4 r.m2.toNat ++ leBytes 4 0) ∧
          (u.tile n).bucker = [] ∧ s.regsBut u []) ∧
    (∀ (o : FOp) (m : Fin 16) (rg : Fin 32) (j : Fin 128) (c : Fin 153),
      let key := rowKey n m (128 * rg + j)
      t.loads = [{ o with kind := .mscrub m rg }] → t.bucker = [] → t.chipper = [] →
      (∀ i : Fin 128, s.mflip.get 0 (rowKey n m (128 * rg + i)) = if i = j then BitVec.ofNat 153 (2 ^ c.val) else 0) →
      Does (.mscrubEnd n) s fun u =>
        u.mflip.get 0 key = 0 ∧ u.rowBits n m (128 * rg + j) = s.mrow.get 0 key ∧
          u.rd Reg.INTEG_MC_CE = satInc (s.rd Reg.INTEG_MC_CE) ∧ (u.tile n).loads = [] ∧ ∀ c, u.core c = s.core c)

/-- From R196, R242, R243, R327 to R331, R360, R383, R386 and R395 to R399: a request that comes to a tile's scratchpad, a debug
window or the HBM is served and answered; a router passes a packet one router on, or loses it on a parity error and counts
it; a response releases its tag; one for a tag that its requester no longer holds is late, counted, with the requester as
source; the tag of an orphan expires, counted, unless its target has held the request; a quota within the pool is stored. -/
def Obligations.TransactionsServedAndReleased : Prop :=
  ∀ (s : State) (tag : BitVec 17) (r : Txn) (la : Nat),
    let sent := s.life.off = false ∧ s.txn tag.toNat = some r ∧ r.st = .sent ∧ r.orphan = false ∧
      s.localAddr r.addr = some la ∧ s.olderFirst r = false
    let answer := fun (u : State) (x : Resp) =>
      u.txn tag.toNat = some { r with st := .answered x, node := (s.routers r.agent r.addr).2 }
    (∀ (n : Fin 144) (o len : Nat), sent → la = 0x1000000000 + n * 2 ^ 20 + o → r.op = .read len → s.portReach n oSeq o len →
      s.reachable n = true → s.initBusy n = false → s.handoverHolds n (s.spWord n o) oSeq = false → (s.tile n).gb = [] →
      Does (.spRemoteAccess tag) s fun u =>
        answer u (.data (s.portBytes n o len) false false) ∧ u.spad = s.spad ∧ s.regsBut u [] ∧ ∀ c, u.core c = s.core c) ∧
    (∀ (n : Fin 144) (m : Fin 16) (o : Nat), sent → la = 0x1400000000 + n * 2 ^ 20 + m * 2 ^ 16 + o → o < 2 ^ 16 → o % 8 = 0 →
      s.reachable n = true →
      (r.op = .read 8 → s.mflip.get 0 (rowKey n m (o / 16)) = 0 → Does (.debugWindowRead tag) s fun u =>
        answer u (.data (leBytes 8 (BitVec.ofNat 64 ((s.mrow.get 0 (rowKey n m (o / 16))).toNat >>> (8 * (o % 16)))).toNat)
          false false) ∧ u.mrow = s.mrow) ∧
      (∀ bs, r.op = .write [(0, bs)] → bs.length = 8 → (s.rg n m (o / 2048)).w ≠ 0 → Does (.debugWindowWrite tag) s fun u =>
        answer u .ack ∧ u.mflip.get 0 (rowKey n m (o / 16)) = 0 ∧
          BitVec.ofNat 64 ((u.mrow.get 0 (rowKey n m (o / 16))).toNat >>> (8 * (o % 16))) = BitVec.ofNat 64 (leNat bs))) ∧
    (sent → la < hbmSize → s.life.refLost = false → la % 64 = 0 → s.hbmReady (s.hbmStack la) = true →
      (r.op = .read 64 → s.hbmMark.get {} (hbmWordKey (s.hbmKey la)) = {} → Does (.hbmRequest tag) s fun u =>
        answer u (.data (s.hbm.getMany 0 (s.hbmKey la) 64) false false) ∧ u.hbm = s.hbm ∧ s.regsBut u []) ∧
      (∀ bs, r.op = .write [(0, bs)] → bs.length = 64 → r.poison = false → Does (.hbmRequest tag) s fun u =>
        answer u .ack ∧ u.hbm.getMany 0 (s.hbmKey la) 64 = bs ∧ s.regsBut u [])) ∧
    (sent → r.out = false →
      exec (.meshPacketRoute tag false) s =
        .next (s.setTxn tag.toNat { r with node := nextRouter r.node (s.routers r.agent r.addr).2 }) ∧
      (r.node < 256 → Does (.meshPacketRoute tag true) s fun u =>
        u.txn tag.toNat = some { r with st := .lost } ∧ u.rd Reg.MESH_PERR_CNT = satInc (s.rd Reg.MESH_PERR_CNT) ∧
          u.bit Reg.MESH_PERR_LAST 31 = true)) ∧
    (s.life.off = false → s.closeNotes = [] →
      (s.txn tag.toNat = some r → r.origin = .store → r.freed = false → r.st = .answered .ack →
        Does (.chokerResponse tag) s fun u =>
          u.txn tag.toNat = none ∧ (∀ j, j ≠ tag.toNat → u.txn j = s.txn j) ∧ s.regsBut u [] ∧ ∀ c, u.core c = s.core c) ∧
      (∀ x, s.txn tag.toNat = some r → r.freed = true → r.st = .answered x → Does (.chokerResponse tag) s fun u =>
        u.txn tag.toNat = none ∧ u.rd Reg.CHOKER_LATE = satInc (s.rd Reg.CHOKER_LATE) ∧
          s.logged u 0x3121 r.agent tag.toNat ∧ ∀ c, u.core c = s.core c) ∧
      (s.txn tag.toNat = none → Does (.chokerResponse tag) s fun u =>
        u.rd Reg.CHOKER_LATE = satInc (s.rd Reg.CHOKER_LATE) ∧ u.draws = s.draws + 1 ∧ u.txns = s.txns) ∧
      (s.txn tag.toNat = some r → r.st = .held ∨ r.noticed = true → exec (.tagExpiry tag) s = .next s) ∧
      (s.txn tag.toNat = some r → r.orphan = true → r.freed = false → r.st ≠ .held → r.noticed = false → Does (.tagExpiry tag) s fun u =>
        u.txn tag.toNat = (if r.st = .lost then none else some { r with freed := true }) ∧
          u.rd Reg.CHOKER_EXPIRED = satInc (s.rd Reg.CHOKER_EXPIRED) ∧ ∀ c, u.core c = s.core c)) ∧
    (∀ (a : Agent) (n : Fin 144) (v : Word), s.serves a (Reg.CHOKER_QUOTA n) →
      let rest := (((List.range 144).filter (· != n.val)).map fun j => s.getF (Reg.CHOKER_QUOTA j) 16 0).sum
      (rest + fld v 16 0 + 2048 ≤ 131072 →
        exec (.quotaWrite a n v) s = .next (s.wr (Reg.CHOKER_QUOTA n) (BitVec.ofNat 32 (fld v 16 0)))) ∧
      (131072 < rest + fld v 16 0 + 2048 → exec (.quotaWrite a n v) s = .next (s.raise 0x3122 n (fld v 16 0))))

/-- From R387 to R393 and R402 to R404: a descriptor that starts is read through the Skidder's port; a FILL of one element, the
only descriptor at work, writes its pattern and completes; completion frees the entry, counts it and does its COMPL action; a
timeout halts the queue and records why; RESTART lets a halted queue try again, SKIP frees and counts the entry at its
head. -/
def Obligations.DmaDescriptors : Prop :=
  ∀ (s : State) (n : Fin 144) (q : Fin 8), s.life.off = false → (s.core (.tile n)).wait = .none →
    let k := s.skq n q
    let count := fun (u : State) (r : Nat) => u.rd (Reg.TILE n r) = s.rd (Reg.TILE n r) + 1
    let alone := ∀ p : Fin 8, p ≠ q → (s.skq n p).started = none
    (let e := s.skEntry n q (s.skDone n q)
     s.reachable n = true → s.skEn n q = true → k = {} → s.skUsed n q ≠ 0 → (s.tile n).handovers = [] →
     s.portReach n oSkid e 64 → Does (.dmaDescriptorStart n q) s fun u =>
       u.skq n q = { started := some s.now, desc := s.portBytes n e 64 } ∧ (∀ p, p ≠ q.val → u.skq n p = s.skq n p) ∧
         u.spad = s.spad ∧ s.regsBut u [] ∧ ∀ c, u.core c = s.core c) ∧
    (∀ (t : Nat) (d : List Byte) (o : Nat),
      s.quadRuns n = true → alone → k = { started := some t, desc := d } → (s.tile n).handovers = [] →
      dmaOp d = 1 → dmaElems d = 1 → dmaGate d = false → dmaSrcFe d = false → dmaDstFe d = false → dmaCompl d = 0 →
      dmaDst d 0 = s.spAddr n o → s.chipId < 256 → s.portReach n oSkid o (dmaLen d) →
      Does (.dmaDescriptorComplete n q) s fun u =>
        u.skq n q = {} ∧ count u (Reg.TILE_SKQ_DONE q) ∧ s.regsBut u [Reg.TILE n (Reg.TILE_SKQ_DONE q)] ∧
          s.wrote u n o ((List.range (dmaLen d)).map fun i => (leBytes 4 (leAt d 56 4)).getD (i % 4) 0)) ∧
    (let d := k.desc
     let arg := leAt d 3 1
     alone → k.started ≠ none → k.halted = false → k.wait = none → k.retry = false →
     (dmaGate d = false ∨ k.gated = true) →
     dmaElems d ≤ k.elem → (dmaCompl d = 1 → k.tagged = true) → Does (.dmaDescriptorComplete n q) s fun u =>
       u.skq n q = {} ∧ count u (Reg.TILE_SKQ_DONE q) ∧
         (dmaCompl d ≤ 1 → s.regsBut u [Reg.TILE n (Reg.TILE_SKQ_DONE q)]) ∧
         (dmaCompl d = 2 → count u (Reg.TILE_SKCNT (arg % 16))) ∧
         (dmaCompl d = 3 → u.bit (Reg.TILE n (if arg < 32 then Reg.TILE_EV_LO else Reg.TILE_EV_HI)) (arg % 32) = true)) ∧
    (k.started ≠ none → k.halted = false → k.wait = none → leAt k.desc 60 2 ≠ 0 → (s.core (.tile n)).task = .idle →
      Does (.dmaTimeout n q) s fun u =>
        (u.skq n q).halted = true ∧ (u.skq n q).started = none ∧
          u.rd (Reg.TILE n Reg.TILE_SKQ_FAIL) = BitVec.ofNat 32 (q + 2 ^ 8 * 0x0B + 2 ^ 31) ∧
          s.logged u 0x1030 n (q + 2 ^ 8 * 0x0B + 2 ^ 16 * (k.at' % 2 ^ 48)) ∧ ∀ c, u.core c = s.core c) ∧
    (∀ a : Agent, s.serves a (Reg.TILE n Reg.TILE_SKQ_CTRL) → k.halted = true →
      Does (.skqRestart a n (BitVec.ofNat 8 (2 ^ q.val))) s (fun u =>
        u.skq n q = {} ∧ (∀ p, p ≠ q.val → u.skq n p = s.skq n p) ∧ s.regsBut u []) ∧
      Does (.skqSkip a n (BitVec.ofNat 8 (2 ^ q.val))) s (fun u =>
        u.skq n q = {} ∧ count u (Reg.TILE_SKQ_DONE q) ∧ s.regsBut u [Reg.TILE n (Reg.TILE_SKQ_DONE q)] ∧
          ∀ p, p ≠ q.val → u.skq n p = s.skq n p))

/-- From R364 to R369, R374, R378 to R381 and Tables 11-2 and 11-5: bring-up, training and initialisation of an HBM stack; refresh;
self-refresh asked for, entered and left; the stack temperature and its events; the counts that CE_CLR and UE_CLR clear; a
patrol read corrects a flipped lane; an hour with more than 1,000 corrected words is reported. -/
def Obligations.HbmControllers : Prop :=
  ∀ (s : State) (i : Fin 2), s.life.off = false →
    let c := s.ctl i
    let st := Reg.HBM i Reg.HBM_STAT
    (∀ (id : Dword) (rfm : BitVec 16), c.phase = 1 → exec (.hbmBringup i id rfm) s =
      .next (((s.setBit Reg.CLK_LOCK (5 + i.val) true).wr64 (Reg.HBM i Reg.HBM_ID_LO) id.toNat).setCtl i
        { c with phase := 2, rfm := rfm.toNat })) ∧
    (c.phase = 2 →
      (∀ (r : BitVec 2) pc, s.getF (Reg.HBM i Reg.HBM_RATE) 1 0 = r.toNat → Does (.hbmTrainingDone i (some r) pc) s fun u =>
        let other := Reg.HBM (1 - i.val) Reg.HBM_STAT
        (u.ctl i).phase = 3 ∧ u.hstat i 0 = true ∧ s.regsBut u [st, other] ∧
          u.getF st 9 8 = max r.toNat (if s.hstat (1 - i.val) 0 then s.getF other 9 8 else 0) ∧
          (s.hstat (1 - i.val) 0 = true → u.getF other 9 8 = u.getF st 9 8) ∧
          (s.hstat (1 - i.val) 0 = false → u.rd other = s.rd other)) ∧
      (∀ pc : Fin 32, s.lf ≠ lfBoot → Does (.hbmTrainingDone i none pc) s fun u =>
        (u.ctl i).phase = 0 ∧ u.hstat i 3 = true ∧ s.logged u 0x2044 i pc) ∧
      (∀ pc : Fin 32, s.lf = lfBoot → Does (.hbmTrainingDone i none pc) s fun u => u.life.failed = true)) ∧
    (c.phase = 3 → s.bit (Reg.HBM i Reg.HBM_CTRL) 4 = false → s.hstat i 2 = false → Does (.hbmInitDone i) s fun u =>
      (u.ctl i).phase = 4 ∧ u.hstat i 1 = true ∧ (∀ k, i.val * 2 ^ 35 ≤ k → k < (i.val + 1) * 2 ^ 35 → u.hbm.get 0 k = 0) ∧
        (∀ k, k < i.val * 2 ^ 35 ∨ (i.val + 1) * 2 ^ 35 ≤ k → u.hbm.get 0 k = s.hbm.get 0 k) ∧ s.regsBut u [st]) ∧
    (∀ pc : Fin 32, 3 ≤ c.phase → s.hstat i 2 = false → exec (.refresh i pc) s = .next (s.emit (.dramRefresh i pc))) ∧
    (∀ t : BitVec 8, Does (.hbmTempRead i t) s fun u =>
      u.rd (Reg.HBM i Reg.HBM_TEMP) = BitVec.ofNat 32 (t.toNat + 256 * b2n (decide (85 ≤ t.toNat))) ∧
        u.hstat i 4 = (if 95 ≤ t.toNat then true else if t.toNat < 90 then false else s.hstat i 4) ∧
        (95 ≤ t.toNat → s.hstat i 4 = false → s.logged u 0x2045 i t.toNat) ∧
        s.regsBut u [st, Reg.HBM i Reg.HBM_TEMP, Reg.TALLY_COUNT, Reg.TALLY_LOST]) ∧
    (∀ (a : Agent) (v : Word), s.serves a (Reg.HBM i Reg.HBM_CTRL) → s.hbmIdle i = true →
      (c.phase = 4 → c.seq = none → fld v 1 0 = s.getF (Reg.HBM i Reg.HBM_CTRL) 1 0 →
        (s.hstat i 2 = false → Does (.selfRefreshEntry a i v) s fun u =>
          u.bit (Reg.HBM i Reg.HBM_CTRL) 4 = true ∧ (u.ctl i).seq = some true ∧ s.regsBut u [Reg.HBM i Reg.HBM_CTRL]) ∧
        (s.hstat i 2 = true → Does (.selfRefreshExit a i v) s fun u =>
          u.bit (Reg.HBM i Reg.HBM_CTRL) 4 = false ∧ (u.ctl i).seq = some false ∧ s.regsBut u [Reg.HBM i Reg.HBM_CTRL])) ∧
      (fld v 1 0 = s.getF (Reg.HBM i Reg.HBM_CTRL) 1 0 →
        Does (.ceClr a i v) s (fun u => u.rd (Reg.HBM i Reg.HBM_CE_CNT) = 0 ∧
          s.regsBut u [Reg.HBM i Reg.HBM_CTRL, Reg.HBM i Reg.HBM_CE_CNT]) ∧
        Does (.ueClr a i v) s (fun u => u.rd (Reg.HBM i Reg.HBM_UE_CNT) = 0 ∧
          s.regsBut u [Reg.HBM i Reg.HBM_CTRL, Reg.HBM i Reg.HBM_UE_CNT]))) ∧
    (∀ (ok : Bool) (pc : Fin 32), c.phase = 4 →
      (c.seq = some true → s.bit (Reg.HBM i Reg.HBM_CTRL) 4 = true → Does (.srSequenceComplete i ok pc) s fun u =>
        u.hstat i 2 = true ∧ (u.ctl i).seq = none ∧ (∀ k : Fin 32, Msg.dramRefresh i k ∈ u.out) ∧ u.hbm = s.hbm ∧
          u.bit Reg.CLK_LOCK (5 + i.val) = false ∧ s.regsBut u [st, Reg.CLK_LOCK]) ∧
      (c.seq = some false → s.bit (Reg.HBM i Reg.HBM_CTRL) 4 = false → Does (.srSequenceComplete i ok pc) s fun u =>
        u.hstat i 2 = false ∧ (u.ctl i).seq = none ∧ u.bit Reg.CLK_LOCK (5 + i.val) = true ∧
          (ok = true → u.hbm = s.hbm ∧ s.regsBut u [st, Reg.CLK_LOCK]) ∧
          (ok = false → (u.ctl i).phase = 0 ∧ u.hstat i 1 = false ∧ u.hstat i 3 = true ∧
            ∀ k, i.val * 2 ^ 35 ≤ k → k < (i.val + 1) * 2 ^ 35 → u.hbm.get 0 k = 0))) ∧
    (let p := c.patrolPtr
     let a := s.hbmEncode (32 * i + p % 32) (p / 32 * 64)
     let w := hbmWordKey (s.hbmKey a)
     s.bit (Reg.HBM i Reg.HBM_CTRL) 8 = true → s.hbmReady i = true → c.rfm = 0 → s.hbmStack a = i →
     (s.hbmMark.get {} w).ue = false → (s.hbmMark.get {} w).poison = false → (s.hbmMark.get {} w).ones ≠ 0 →
       Does (.patrolRead i []) s fun u =>
         u.hbmMark.get {} w = {} ∧ u.rd (Reg.HBM i Reg.HBM_CE_CNT) = satInc (s.rd (Reg.HBM i Reg.HBM_CE_CNT)) ∧
           (u.ctl i).hourCe = c.hourCe + 1 ∧ (u.ctl i).patrolPtr = (p + 1) % (32 * pcWords) ∧ u.hbm = s.hbm) ∧
    (Does (.hbmCeHour i) s fun u =>
      (u.ctl i).hourCe = 0 ∧ (1000 < c.hourCe → s.logged u 0x2040 i c.hourCe) ∧ (c.hourCe ≤ 1000 → s.regsBut u []))

/-- From R115, R202, R324, R332 to R336, R343, R348, R355 and R357: an idle gather-buffer entry goes back to its bank; a handover is
taken and, once drained, changes the owners of its banks alone; stripes; cache maintenance; the scrubber; initialisation
zeroes the banks that are not resident; event bits; and the debug registers. -/
def Obligations.ScratchpadManagement : Prop :=
  ∀ (s : State) (n : Fin 144), s.life.off = false →
    let t := s.tile n
    let reg := fun (r : Nat) => Reg.TILE n r
    (∀ (i : Fin 8) (e : GbEntry), t.gb[i.val]? = some e → gbFind t.gb e.word = some e → e.data.length = 64 →
      s.wmark n e.word = {} → Does (.gbIdleWriteback n i) s fun u =>
        (u.tile n).gb = gbWithout t.gb e.word ∧ u.wordBytes n e.word = (List.range 64).map (fun j =>
          if e.dirty.getLsbD j then e.data.getD j 0 else (s.wordBytes n e.word).getD j 0) ∧ s.regsBut u []) ∧
    (∀ (a : Agent) (v : Word), s.serves a (reg Reg.TILE_OWNER) → s.gated n = false → t.handovers = [] → ownMask v ≠ 0 →
      ownNew v < 6 → s.cacheLegal n (ownMask v) (ownNew v) = true → Does (.ownerHandover a n v) s fun u =>
        u.rd (reg Reg.TILE_OWNER) = v &&& 0x7FFFF ∧ s.regsBut u [reg Reg.TILE_OWNER] ∧
          ∃ h, (u.tile n).handovers = [h] ∧ h.word = v ∧ h.started = true ∧ h.seq = t.issue) ∧
    (∀ h : Handover, t.handovers = [h] → h.started = true → s.handoverDrained n h = true → ownNew h.word < 5 →
      (∀ b, b < 16 → s.owner n b ≠ oCache) → t.gb = [] → t.waiters = [] → t.feeder = [] → t.loads = [] → t.bucker = [] →
      t.chipper = [] → t.regQ = [] → s.heldReqs = [] → Does (.handoverComplete n) s fun u =>
        (u.tile n).handovers = [] ∧ u.spad = s.spad ∧
          ∀ b, b < 16 → u.owner n b = if (ownMask h.word).testBit b then ownNew h.word else s.owner n b) ∧
    (∀ (a : Agent) (i : Fin 4) (v : Word), s.serves a (reg (Reg.TILE_STRIPE i)) → s.gated n = false → s.tileIdle n = true →
      let f := fld v 3 0
      let k := 2 ^ fld v 6 4
      let clash := v.getLsbD 7 = true ∧ ∃ j : Fin 4, j ≠ i ∧ ∃ g m, s.stripe n j = some (g, m) ∧ f < g + m ∧ g < f + k
      (k ≤ 16 → f % k = 0 → ¬clash →
        exec (.stripeWrite a n i v) s = .next (s.wr (reg (Reg.TILE_STRIPE i)) (v &&& 0xFF))) ∧
      (16 < k ∨ f % k ≠ 0 ∨ clash →
        exec (.stripeWrite a n i v) s = .next (s.raise 0x2031 n (v.toNat + 2 ^ 32 * Reg.TILE_STRIPE i)))) ∧
    (∀ a : Agent, s.serves a (reg Reg.TILE_CACHE_CTRL) → s.gated n = false →
      Does (.cacheWb a n) s (fun u =>
        (u.tile n).maint = (true, t.maint.2) ∧ u.bit (reg Reg.TILE_SP_STAT) 8 = true ∧ s.regsBut u [reg Reg.TILE_SP_STAT]) ∧
      Does (.cacheInv a n) s (fun u =>
        (u.tile n).maint = (t.maint.1, true) ∧ u.bit (reg Reg.TILE_SP_STAT) 8 = true ∧ s.regsBut u [reg Reg.TILE_SP_STAT])) ∧
    (t.maint = (false, true) → Does (.cacheMaintEnd n) s fun u =>
      (u.tile n).lines = [] ∧ (u.tile n).plru = [] ∧ (u.tile n).maint = (false, false) ∧
        u.bit (reg Reg.TILE_SP_STAT) 8 = false ∧ u.hbm = s.hbm ∧ s.regsBut u [reg Reg.TILE_SP_STAT]) ∧
    (∀ (w : Nat) (l : Fin 8), s.bit (reg Reg.TILE_SCRUB_CFG) 16 = true → s.reachable n = true → s.initBusy n = false →
      s.scrubWord n t.scrubPtr = some w → s.wmark n w = { ones := BitVec.ofNat 8 (2 ^ l.val) } →
      Does (.spScrubWord n []) s fun u =>
        u.wmark n w = {} ∧ u.rd Reg.INTEG_SP_CE = satInc (s.rd Reg.INTEG_SP_CE) ∧ (u.tile n).scrubPtr = (w + 1) % 16384 ∧
          u.spad = s.spad ∧ (∀ m v, u.tag m v = s.tag m v) ∧ u.spTag.get 0 (n * 16384 + w) = if s.tag n w then 7 else 0) ∧
    (s.initBusy n = true → s.heldReqs = [] → Does (.spInitComplete n) s fun u =>
      u.initBusy n = false ∧ s.regsBut u [reg Reg.TILE_SP_STAT] ∧ ∀ b i, b < 16 → i < 65536 →
        u.spad.get 0 (n * 1048576 + b * 65536 + i) =
          if s.bankResident n b then s.spad.get 0 (n * 1048576 + b * 65536 + i) else 0) ∧
    (∀ (a : Agent) (hi : Bool) (v : Word), (s.core (.tile n)).wait = .none →
      let r := reg (if hi then Reg.TILE_EV_HI else Reg.TILE_EV_LO)
      let m := if hi then v &&& 0xFFFFFF else v
      (s.serves a r → Does (.eventBitSet a n hi v) s fun u =>
        u.rd r = s.rd r ||| m ∧ s.regsBut u [r] ∧ u.tiles = s.tiles) ∧
      (s.serves a (reg (if hi then Reg.TILE_EVCLR_HI else Reg.TILE_EVCLR_LO)) → Does (.eventBitClear a n hi v) s fun u =>
        u.rd r = s.rd r &&& ~~~m ∧ s.regsBut u [r] ∧ u.tiles = s.tiles)) ∧
    (∀ (a : Agent) (hi : Bool) (v : Word) (r : BitVec 5),
      s.serves a (reg (if hi then Reg.TILE_DBG_HI else Reg.TILE_DBG_LO)) → s.tileIdle n = true →
      s.getF (reg Reg.TILE_DBG_SEL) 6 0 = r.toNat →
      exec (.dbgRegWrite a n hi v) s = .next (s.modCore (.tile n) fun x => x.setS r
        (if hi then v ++ (x.sreg r).extractLsb' 0 32 else (x.sreg r).extractLsb' 32 32 ++ v : BitVec 64)))

/-- From R195, R414, R416, R419, R420, R422, R435 and R436: a request from another chip that an open window admits, at words that
SEQ owns (a full/empty one: of an owner that admits tags), is served, its response leaves for the source, and the credits
of its units go back; an FE_RD of an empty slot is answered EMPTY, an FE_WR of a full one FULL. -/
def Obligations.RequestsFromOtherChips : Prop :=
  ∀ (s : State) (k : Fin 64) (p : Packet) (n : Fin 144) (o win : Nat), s.yarderOn = true → s.lstate k = lkUp →
    p.dst.toNat = s.chipId → p.addr.toNat = 0x1000000000 + n * 2 ^ 20 + o → o < 2 ^ 20 → s.reachable n = true →
    s.initBusy n = false → s.winsWhole →
    let a := p.addr.toNat
    let len := if p.size = 0 then 64 else p.size.toNat
    let w := s.spWord n o
    let word := (p.data ++ List.replicate 64 0).take 64
    let answers := fun (c : Instr) (h : Packet) (t : State) (type status : Nat) (data : List Byte) =>
      exec c s = .next (s.apart fun _ =>
        (t.sendPacket (s.responsePacket h type status data false)).sendIdle k false 0 (packetUnits h))
    let same := fun (t : State) => s.regsBut t [] ∧ t.out = s.out ∧ t.links = s.links ∧ t.txns = s.txns
    (s.handoverHolds n w oSeq = false → s.portReach n oSeq o len → (s.tile n).gb = [] → (p.size = 0 → o % 64 = 0) →
      (s.findWindow p.src.toNat a len .read = some win → ∃ t, same t ∧ t.spad = s.spad ∧
        answers (.rd k p) (rowHead p 1 0 0) t 0x10 0
          ((List.replicate (o % 64) 0 ++ s.portBytes n o len ++ List.replicate 64 0).take 64)) ∧
      (s.findWindow p.src.toNat a len .write = some win → p.poison.getLsbD 0 = false → ∃ t, same t ∧
        (∀ i, i < len → t.byteAt n (o + i) = word.getD (o % 64 + i) 0) ∧
        answers (.wr k p) (rowHead p 2 0 1) t 0x11 0 [])) ∧
    (o % 64 = 0 → s.slotReach n o → s.findWindow p.src.toNat a 64 .fe = some win →
      s.handoverHolds n w (s.ownerOf n w) = false →
      let tags := fun (t : State) (full : Bool) => t.tag n w = full ∧
        ∀ m v, m * 16384 + v ≠ n * 16384 + w → t.tag m v = s.tag m v
      (s.tag n w = true → ∃ t, same t ∧ tags t false ∧ t.spad = s.spad ∧
        answers (.feRd k p) (rowHead p 3 0 0) t 0x12 0 (s.wordBytes n w)) ∧
      (s.tag n w = false → answers (.feRd k p) (rowHead p 3 0 0)
        ((s.fixTag n w).refuseArrival (some win) p.src.toNat 3 a) 0x12 3 []) ∧
      (s.tag n w = false → p.poison.getLsbD 0 = false → (p.size = 0 ∨ p.size = 8) → ∃ t, same t ∧ tags t true ∧
        t.wordBytes n w = word.take len ++ (s.wordBytes n w).drop len ∧
        answers (.feWr k p) (rowHead p 4 0 1) t 0x12 0 []) ∧
      (s.tag n w = true → answers (.feWr k p) (rowHead p 4 0 1)
        ((s.fixTag n w).refuseArrival (some win) p.src.toNat 2 a) 0x12 2 []) ∧
      (∃ t, same t ∧ tags t (s.tag n w) ∧ t.spad = s.spad ∧
        answers (.yarderFePeek k p) (rowHead p 5 0 0) t 0x12 (if s.tag n w then 1 else 0) (s.wordBytes n w)) ∧
      (∃ t, same t ∧ tags t true ∧ t.spad = s.spad ∧ answers (.yarderFeSet k p) (rowHead p 6 0 0) t 0x12 0 []) ∧
      (∃ t, same t ∧ tags t false ∧ t.spad = s.spad ∧ answers (.feClr k p) (rowHead p 7 0 0) t 0x12 0 [])) ∧
    (let N := p.nword.toNat
     1 ≤ N → N ≤ 16 → o % 64 = 0 → p.poison = 0 → (s.tile n).gb = [] →
     s.findWindow p.src.toNat a (64 * N) .write = some win →
     (∀ i, i < N → s.portReach n oSeq (o + 64 * i) 64 ∧ s.handoverHolds n (s.spWord n (o + 64 * i)) oSeq = false ∧
       ∀ j, j < i → s.spWord n (o + 64 * j) ≠ s.spWord n (o + 64 * i)) →
     ∃ t, same t ∧ (∀ i, i < 64 * N → t.byteAt n (o + i) = p.data.getD i 0) ∧
       exec (.wrBulk k p) s = .next (s.apart fun _ =>
         (t.sendPacket (s.responsePacket (rowHead p 0x20 2 N) 0x21 0 [] false)).sendIdle k false 2 (packetUnits (rowHead p 0x20 2 N))))

/-- From R395, R398, R410 to R414, R416, R417, R420, R423, R428 and R445: a response from another chip releases its tag and reaches
its requester; BULK_ACK releases every tag of its bulk ID; a packet for another chip is forwarded, at most three times; a
flit acknowledges, returns credits, and hands on the packets of a DATA flit in sequence; a bad one is counted and NAKed. -/
def Obligations.ResponsesAndFlits : Prop :=
  ∀ (s : State) (k : Fin 64) (p : Packet), s.yarderOn = true → s.lstate k = lkUp →
    let l := s.link k
    let tag := p.tag.toNat % 2 ^ 17
    let awaits := fun (r : Txn) => s.localAddr r.addr = none ∧ r.out = true ∧ r.st = .sent ∧ r.freed = false ∧ r.left ≤ 1 ∧
      r.buf = [] ∧ r.pois = false ∧ r.bad = none
    (p.dst.toNat = s.chipId → s.closeNotes = [] →
      (∀ (r : Txn) (c : CoreId) (m addr : Nat) (rd : BitVec 5) (sg : Bool),
        let y := s.core c
        s.txn tag = some r → r.orphan = false → r.origin = .load → coreOf r.agent = some c → awaits r →
        y.deferred = [] → y.stopReq = false → y.step = false → 0 < m → r.addr % 64 + m ≤ 64 → r.op = .read m →
        p.status = 0 → p.poison.getLsbD 0 = false → p.data.length = 64 → y.wait = .resp tag addr (.scalar rd m sg) →
        Does (.rdRsp k p) s fun t =>
          let v := leAt p.data (r.addr % 64) m
          t.core c = { y.setS rd (if sg then BitVec.ofInt 64 (sInt (8 * m) v) else BitVec.ofNat 64 v) with
            pc := y.pc + 4, wait := .none } ∧ t.txn tag = none) ∧
      (∀ (r : Txn) (c : CoreId) (addr lim : Nat) (vd : BitVec 5) (f sc : Bool),
        let y := s.core c
        s.txn tag = some r → r.orphan = false → r.origin = .load → coreOf r.agent = some c → awaits r →
        y.deferred = [] → y.stopReq = false → y.step = false → r.op = .feRead sc → p.status = 0 → p.nword = 1 →
        p.poison.getLsbD 0 = false → p.data.length = 64 → y.wait = .fe addr none (.slotV vd) (some tag) f lim →
        Does (.feRsp k p) s fun t => t.txn tag = none ∧
          t.core c = { y.setV vd (setFld (y.vreg vd) 511 0 (leNat p.data)) with pc := y.pc + 4, wait := .none }) ∧
      (∀ r : Txn, s.txn tag = some r → r.origin = .store → awaits r → p.status = 0 →
        (∃ n, r.op = .write n) → Does (.wrAck k p) s fun t =>
          t.txn tag = none ∧ (∀ j, j ≠ tag → t.txn j = s.txn j) ∧ s.regsBut t [] ∧ ∀ c, t.core c = s.core c) ∧
      (let id := p.tag.toNat % 64
       l.txq = [] → p.status = 0 → l.bulk.get [] id ≠ [] → (∀ j, j ∈ l.bulk.get [] id → ∃ r n, s.txn j = some r ∧
         r.origin = .store ∧ awaits r ∧ r.addr / 2 ^ 40 = p.src.toNat ∧ r.op = .write n) →
       (∃ j r, j ∈ l.bulk.get [] id ∧ s.txn j = some r ∧ r.addr % 2 ^ 40 ≤ p.addr.toNat ∧
         p.addr.toNat < r.addr % 2 ^ 40 + r.op.span) → (l.bulk.get [] id).Nodup →
       Does (.bulkAck k p) s fun t => (t.link k).bulk.get [] id = [] ∧ s.regsBut t [] ∧ (∀ c, t.core c = s.core c) ∧
         ∀ j, t.txn j = if j ∈ l.bulk.get [] id then none else s.txn j)) ∧
    (p.dst.toNat ≠ s.chipId → packetValid p = true → p.type.toNat ≠ 0x30 → p.type.toNat ≠ 0x31 →
      (p.hops ≠ 3 → exec (.packetForward k p) s = .next (s.apart fun s =>
        (s.sendPacket { p with hops := p.hops + 1 }).sendIdle k false p.vc.toNat (packetUnits p))) ∧
      (p.hops = 3 → exec (.packetForward k p) s = .next (s.apart fun s =>
        (s.raise 0x3004 s.chipId (p.dst.toNat + 256)).sendIdle k false p.vc.toNat (packetUnits p)))) ∧
    (s.svc.budgets = [] → l.txq = [] →
      (∀ (f : List Byte) (fec : BitVec 8), f.length ≠ 256 ∨ crc32 (f.take 252) ≠ leAt f 252 4 → Does (.flitReceive k fec f) s fun t =>
        t.rd (Reg.YARDER k Reg.YARDER_CRC_ERR) = satInc (s.rd (Reg.YARDER k Reg.YARDER_CRC_ERR)) ∧
          t.rd (Reg.YARDER k Reg.YARDER_FEC_CE) = satAdd (s.rd (Reg.YARDER k Reg.YARDER_FEC_CE)) fec.toNat ∧
          s.regsBut t [Reg.YARDER k Reg.YARDER_CRC_ERR, Reg.YARDER k Reg.YARDER_FEC_CE] ∧ t.links = s.links ∧
          t.out = s.out ++ [.flit k (flitBytes 0 0 l.ack l.rxAny true 0 0 [])]) ∧
      (∀ (i vc n : Nat) (f : TxFlit), l.retry[i]? = some f → (∀ j g, l.retry[j]? = some g → j < i → g.seq ≠ f.seq) →
        f.seq < 256 → vc < 4 → n < 256 → ∀ fec, Does (.flitReceive k fec (flitBytes 0 0 f.seq true false vc n [])) s fun t =>
          (t.link k).retry = l.retry.drop (i + 1) ∧ t.credit k vc = min (s.credit k vc + n) 4095 ∧ t.out = s.out ∧
            ∀ v, v < 4 → v ≠ vc → t.credit k v = s.credit k v) ∧
      (∀ vc n (fec : BitVec 8), vc < 4 → n < 256 → l.rxBuf = [] → l.rxSeq < 256 → p.nword.toNat ≤ 3 → p.data.length = 64 * p.nword.toNat →
        p.type.toNat ≠ 0 →
        exec (.flitReceive k fec (flitBytes 1 l.rxSeq 0 false false vc n (packetBytes p))) s = .next (s.apart fun s =>
          let s := s.countBy (Reg.YARDER k Reg.YARDER_FEC_CE) fec.toNat
          let u := (((s.setCredit k vc (min (s.credit k vc + n) 4095)).setLink k
            { l with rxSeq := (l.rxSeq + 1) % 256, rxAny := true }).sendIdle k false 0 0).busDraw
          (u.2.packetIn k p u.1).budgetAnswers)))

/-- From R424 to R426, R430 to R433, R437, R438, R444 and R447: training leads to the handshake, and both its words to UP with the
partner's credits; a wrong HELLO fails the link; a lost link has no credits and is FAILED, and the partner's FAILOVER starts
its training; SLEEP, RETRAIN and CNT_CLR; a window opens over one scratchpad, and closes once every source has drained or
the timeout forces it. -/
def Obligations.LinksAndWindows : Prop :=
  ∀ (s : State) (k : Fin 64) (a : Agent) (v : Word), s.yarderOn = true →
    let l := s.link k
    let reg := fun (r : Nat) => s.rd (Reg.YARDER k r)
    let sends := fun (type : Nat) (dst : Byte) (h : HelloWord) => Msg.flit k (flitBytes 1 l.txSeq l.ack l.rxAny false 0 0
      (packetBytes { type := BitVec.ofNat 8 type, vc := 3, nword := 1, src := BitVec.ofNat 8 s.chipId, dst := dst, tag := 0,
                     status := 0, hops := 0, addr := 0, size := 0, poison := 0, data := helloBytes h } ++ List.replicate 8 0))
    (s.lstate k = lkTraining → l.txq = [] →
      (∀ g : BitVec 24, l.retry = [] → Does (.trainingComplete k true g) s fun t =>
        t.lstate k = lkHandshake ∧ t.rd (Reg.YARDER k Reg.YARDER_TRAIN) = g.setWidth 32 ∧
          t.out = s.out ++ [sends 0x30 (s.draw 8).1 (s.helloWord k)]) ∧
      (∀ g : BitVec 24, l.slow = true → l.fails = 2 → Does (.trainingComplete k false g) s fun t => t.lstate k = lkFailed) ∧
      (∀ g : BitVec 24, l.slow = false → l.fails = 2 → Does (.trainingComplete k false g) s fun t =>
        t.lstate k = lkTraining ∧ (t.link k).slow = true ∧ t.bit (Reg.YARDER k Reg.YARDER_STAT) 3 = true ∧
          s.logged t 0x3007 k 0)) ∧
    (∀ h : HelloWord, s.lstate k = lkHandshake → l.txq = [] → l.retry = [] →
      (s.helloFault k h = none → l.acked = none → Does (.hello k h) s fun t =>
        t.lstate k = lkHandshake ∧ (t.link k).partner = some h ∧
          t.out = s.out ++ [sends 0x31 h.chip { s.helloWord k with echo := h.stamp }]) ∧
      (∀ g : HelloWord, s.helloFault k h = none → l.partner = some g → Does (.helloAck k h) s fun t =>
        t.lstate k = lkUp ∧ t.credit k 0 = g.credReq.toNat % 4096 ∧ t.credit k 1 = g.credRsp.toNat % 4096 ∧
          t.credit k 2 = g.credBulk.toNat % 4096 ∧ t.credit k 3 = g.credCtrl.toNat % 4096 ∧
          fld (t.rd (Reg.YARDER k Reg.YARDER_PEER)) 7 0 = g.chip.toNat ∧
          t.rd64 (Reg.YARDER k Reg.YARDER_UID_LO) = g.uid.toNat) ∧
      (∀ r, s.helloFault k h = some r → Does (.hello k h) s fun t =>
        t.lstate k = lkFailed ∧ s.logged t 0x3003 k (h.chip.toNat + 256 * r) ∧
          sends 0x31 h.chip { s.helloWord k with echo := h.stamp } ∈ t.out)) ∧
    (s.lstate k = lkUp → l.partner.isSome = true →
      (∀ cw : Bool, Does (.linkLost k cw) s fun t => t.lstate k = lkFailed ∧ t.credit k 0 = 0 ∧ t.credit k 2 = 0 ∧
        t.rd (Reg.YARDER k Reg.YARDER_FEC_UE) = if cw then satInc (reg Reg.YARDER_FEC_UE) else reg Reg.YARDER_FEC_UE) ∧
      (s.group ((s.partnerChip k).getD 0) = [k.val] → ∀ cw : Bool, Does (.linkLost k cw) s fun t =>
        (t.link k).retry = [] ∧ (t.link k).lost = none)) ∧
    (∀ (j : Fin 64) (src last : Byte) (f : Failover), j ≠ k → s.lstate k = lkUp → s.lstate j = lkFailed →
      (s.link j).lost = some f → (s.link j).retrain = true → f.peer.chip = src →
      (∀ i g, i < 64 → (s.link i).lost = some g → g.peer.chip = src → g.peer.link = f.peer.link → i = j.val) →
      f.peer.link.toNat < 64 → Does (.failover k src (Fin.ofNat 64 f.peer.link.toNat) last) s fun t =>
        t.lstate j = lkTraining ∧ (t.link j).lost = none ∧ (t.link j).retry = []) ∧
    (let serves := s.serves a (Reg.YARDER k Reg.YARDER_CTRL)
     serves → v.getLsbD 1 = s.bit (Reg.YARDER k Reg.YARDER_CTRL) 1 → s.bit (Reg.YARDER k Reg.YARDER_CTRL) 0 = true →
      (s.lstate k = lkUp → l.partner.isSome = true → 1 < (s.group ((s.partnerChip k).getD 0)).length → Does (.linkSleep a k v) s fun t =>
        t.lstate k = lkSleep ∧ (t.link k).txq = []) ∧
      (k.val < 24 ∨ s.slotOk = true → Does (.retrain a k v) s fun t =>
        t.lstate k = lkTraining ∧ (t.link k).retry = []) ∧
      (v.getLsbD 0 = true → s.lstate k ≠ (if v.getLsbD 2 then lkUp else lkSleep) →
        Does (.linkCntClr a k v) s fun t => t.links = s.links ∧
          ∀ off, off ≠ Reg.YARDER k Reg.YARDER_CTRL → t.rd off = if Reg.YARDER k Reg.YARDER_FEC_CE ≤ off ∧ off ≤ Reg.YARDER k Reg.YARDER_BADPKT ∧ off % 4 = 0 then 0
            else s.rd off)) ∧
    (∀ w : BitVec 8,
      let W := w.toNat
      let ctrl := Reg.YFAB_WIN W 0xC
      (s.serves a ctrl → s.winsWhole → s.winState W = 0 → fld v 3 2 ≠ 3 → inOneScratchpad (s.winBase W) (64 * s.winLen W) = true →
        Does (.windowOpen a w v) s fun t => t.winState W = 1 ∧ t.rd ctrl = (v ||| 1) &&& 0xF ∧
          s.regsBut t [ctrl, Reg.YFAB_WIN W 0x18, Reg.YFAB_WIN W 0x1C] ∧ t.rd (Reg.YFAB_WIN W 0x1C) = 0) ∧
      (s.serves a ctrl → s.winsWhole → s.winState W = 1 → fld v 3 2 = fld (s.rd ctrl) 3 2 →
        let cs := (List.range 64).filter fun c =>
          s.winSrc W c && (s.group c != [] || s.getF (Reg.YFAB_ROUTE c) 7 0 != 0xFF)
        Does (.windowClose a w v) s fun t => (t.rd ctrl).getLsbD 0 = false ∧ t.winWait.get [] W = cs ∧
          t.winState W = if cs = [] then 0 else 2) ∧
      (s.winState W = 2 →
        let cs := s.winWait.get [] W
        (∀ src : Byte, s.lstate k = lkUp → src.toNat ∈ cs → cs.Nodup → Does (.drained k src w) s fun t =>
          t.winWait.get [] W = cs.filter (· != src.toNat) ∧ t.winState W = if cs = [src.toNat] then 0 else 2) ∧
        (cs ≠ [] → Does (.windowCloseTimeout w) s fun t =>
          t.winState W = 0 ∧ t.bit (Reg.YFAB_WIN W 0x18) 2 = true ∧ s.logged t 0x3201 W ((cs.map fun c => 2 ^ c).sum))) ∧
      (∀ (src : Byte) (base : BitVec 40) (len : BitVec 15), s.lstate k = lkUp → s.closeNotes = [] →
        let held := (s.tagList.filter fun p => decide (p.2.addr / 2 ^ 40 = src.toNat ∧
          base.toNat < p.2.addr % 2 ^ 40 + p.2.op.span ∧ p.2.addr % 2 ^ 40 < base.toNat + 64 * (len.toNat + 1))).map (·.1)
        (held ≠ [] → Does (.closeNote k src w base len) s fun t =>
          t.closeNotes = [⟨src.toNat, W, held⟩] ∧ s.regsBut t []) ∧
        (held = [] → exec (.closeNote k src w base len) s = .next (s.apart fun s =>
          (s.sendCtrl src.toNat 0x34 W 0 0).sendIdle k false 3 2))))

/-- From R457, R459 to R467, R473, R475 to R477 and R480 to R483: a leader begins a frame in a free buffer; a payload packet is
staged, marked and, while Landing's reserve has a tag, on its way to the frame's buffer; the trailer of a whole frame makes it READY; missing packets are asked for again, then the frame is
abandoned; the token of a frame that has left staging fills its slot; release, enable and loss of a stream; the link of a MAC;
frames to and from the rings; steps of the clock and the odometry counter.  The packet formats of the standards to which R454 and R474 refer are the model's choice (log 35). -/
def Obligations.LandingStreams : Prop :=
  ∀ (s : State) (k : Fin 4) (n : Fin 64) (f : List Byte), s.life.off = false → s.life.refLost = false →
    let x := s.strm n
    let st := fun (t : State) => t.strm n
    let holds := fun (t : State) (a : Nat) (bs : List Byte) => ∀ j, j < bs.length → t.hbm.get 0 (s.hbmKey (a + j)) = bs.getD j 0
    let clean := fun (a len : Nat) => a + len ≤ hbmSize ∧ ∀ j, j < len →
      s.hbmReady (s.hbmStack (a + j)) = true ∧ s.hbmMark.get {} (hbmWordKey (s.hbmKey (a + j))) = {}
    let takes := s.bit (Reg.MAC_CTRL k) 0 = true ∧ s.bit (Reg.MAC_CTRL 5) 1 = false ∧ s.stageUsed + f.length ≤ 2 ^ 23 ∧
      (∀ i, i < 64 → s.bit (0x500000 + Reg.PEND + 4 * (i / 32)) (i % 32) = false)
    (takes → (s.strState n = 1 ∨ s.strState n = 2) →
      (∀ b px i, s.classify k f = .leader n b px → (∀ r, r < 11 → s.inForce (Reg.STR n (4 * r)) = s.rd (Reg.STR n (4 * r))) →
        x.asm = none → s.freeBuf n = some i → Does (.gvspLeader k f) s fun t =>
          t.strState n = 2 ∧ (st t).prevBlock = x.prevBlock ∧ (st t).ready = x.ready ∧ ∃ g : Machine.Frm, (st t).asm = some g ∧ g.buf = i ∧
            g.addr = s.bufAddr n i ∧ g.block = b ∧ g.pixfmt = BitVec.ofNat 32 px ∧ g.tFirst = s.stamp k ∧ g.dFirst = s.odo ∧ g.got = [] ∧
            g.trailer = none ∧ g.flags = if (∃ p, x.prevBlock = some p ∧ b ≠ nextBlock (s.strF n 0 3 3 == 1) p) then 32 else 0) ∧
      (∀ b id d g, s.classify k f = .payload n 0 b id d → x.asm = some g → g.block = b → id ≠ 0 → g.got.get false id = false →
        d.length = s.strF n 0xC 13 0 → g.short = none → g.trailer = none → id * d.length ≤ s.strF n 0x1C 19 0 * 4096 →
        let a := g.addr + (id - 1) * d.length
        a + d.length ≤ hbmSize → Does (.gvspPayload k f) s fun t =>
          (s.ingest = [] → s.held 148 < 1024 → ∃ tag r, t.ingest = [⟨n, b, a, d, some tag⟩] ∧ t.txn tag = some r ∧
            r.agent = 148 ∧ r.origin = .landing ∧ r.op = .write (runsOf a d)) ∧
          (s.ingest ≠ [] → ∃ p ∈ t.ingest, p.strm = n.val ∧ p.block = b ∧ p.addr = a ∧ p.data = d) ∧
          (st t).asm = some { g with got := g.got.set false id true, highest := max g.highest id,
                                     length := if g.highest ≤ id then id * d.length else g.length }) ∧
      (∀ b tr g, s.classify k f = .trailer n b tr → x.asm = some g → g.block = b → g.trailer = none →
        (∀ i, 1 ≤ i → i < tr → g.got.get false i = true) → Does (.gvspTrailer k f) s fun t => (st t).asm = none ∧
          (st t).prevBlock = some b ∧
          (st t).ready = x.ready ++ [{ g with trailer := some tr, tLast := s.stamp k, dLast := s.odo }])) ∧
    (∀ g : Machine.Frm, x.asm = some g →
      let top := max g.highest (match g.trailer with | some t => t | none => (s.lastId n g).getD 0)
      missing g top = true →
      (gapsOf g top ≠ [] → g.requests < s.strF n 0 11 8 → Does (.frameTimeout n) s fun t =>
        (st t).asm = some { g with requests := g.requests + 1, flags := setFld g.flags 2 2 1 } ∧
          t.out = s.out ++ [.resendCmd (s.strF n 0 2 1) (s.inForce (Reg.STR n 4)) (s.getF Reg.LANDING_CTRL 15 0)
            (s.strF n 0 3 3 == 1) (s.strF n 0 31 24) g.block (gapsOf g top)]) ∧
      (s.strF n 0 11 8 ≤ g.requests → Does (.frameTimeout n) s fun t =>
        (st t).asm = none ∧ (st t).abandoned = x.abandoned.filter (· != g.block) ++ [g.block] ∧ t.rd (Reg.STR n 0x38) = satInc (s.rd (Reg.STR n 0x38)) ∧
          s.logged t 0x4003 n (2 ^ 32 * (g.block % 2 ^ 32)))) ∧
    (∀ (g : Machine.Frm) (rest : List Machine.Frm) (m : Fin 144) (o : Nat), x.ready = g :: rest →
      s.staging n g.block = false →
      s.strF n 0x20 31 6 * 64 + s.strF n 0x24 7 0 * 2 ^ 32 = 0x1000000000 + m * 2 ^ 20 + o → o < 2 ^ 20 →
      s.reachable m = true → s.slotReach m o → s.tag m (s.spWord m o) = false →
      let q := ((s.rd (Reg.STR n 0x34)).toNat + 1) % 2 ^ 32
      Does (.tokenDelivery n) s fun t => t.tag m (s.spWord m o) = true ∧ t.wordBytes m (s.spWord m o) = s.tokenBytes n q g ∧
        t.rd (Reg.STR n 0x34) = BitVec.ofNat 32 q ∧ (st t).ready = rest ∧ (st t).held = x.held ++ [(q, g.buf)]) ∧
    (∀ (a : Agent) (v : Word),
      (s.serves a (Reg.STR n 0x2C) → Does (.streamRelease a n v) s fun t => (st t).ready = x.ready ∧
        (st t).held = x.held.filter fun p => decide (0 < sInt 32 ((p.1 + 2 ^ 32 - v.toNat) % 2 ^ 32))) ∧
      (s.serves a (Reg.STR n 0) → s.bit (Reg.STR n 0) 0 = !v.getLsbD 0 → Does (.streamEnable a n v) s fun t =>
        t.strState n = (if v.getLsbD 0 then 1 else 0) ∧ (st t).asm = none ∧ (v.getLsbD 0 = true → st t = {}) ∧
          ∀ r, r < 11 → t.inForce (Reg.STR n (4 * r)) = t.rd (Reg.STR n (4 * r)))) ∧
    (∀ fault : Bool, s.bit (Reg.STR n 0) 0 = true → (s.strState n = 1 ∨ s.strState n = 2) →
      (fault = true → s.bit (Reg.MAC_STAT (s.strF n 0 2 1)) 0 = false) → (fault = false → s.strF n 0x28 31 16 ≠ 0) →
      Does (.streamLost n fault) s fun t => t.strState n = 3 ∧ (st t).asm = none ∧ (st t).ready = x.ready ∧
        s.logged t 0x4001 n (b2n fault + 2 ^ 32 * (s.rd (Reg.STR n 0x34)).toNat)) ∧
    (∀ (j : Fin 5) (sp : BitVec 2),
      let ring := fun (r : Nat → Nat) =>
        let e := s.ringEntry r
        let ent := s.hbm.getMany 0 (s.hbmKey e) 32
        clean e 32 ∧ leAt ent 10 1 % 2 = 1
      let head := fun (r : Nat → Nat) (t : State) =>
        t.getF (r 0xC) 11 0 = (s.getF (r 0xC) 11 0 + 1) % 2 ^ (s.getF (r 8) 3 0) % 4096
      (let w := BitVec.ofNat 32 (b2n (sp != 0) + 2 * sp.toNat)
       Does (.macLinkChange j sp) s fun t => t.rd (Reg.MAC_STAT j) = w ∧ s.regsBut t [Reg.MAC_STAT j] ∧
         (j.val = 4 → w ≠ s.rd (Reg.MAC_STAT j) → (t.port 4).changed = s.timeNow ∧
           (t.port 4).flaps = (s.port 4).flaps + b2n (s.bit (Reg.MAC_STAT j) 0 && sp == 0))) ∧
      (s.bit (Reg.MAC_CTRL j) 0 = true → s.bit (Reg.MAC_CTRL 5) 1 = false → s.stageUsed + f.length ≤ 2 ^ 23 →
        (∀ i, i < 64 → s.bit (0x500000 + Reg.PEND + 4 * (i / 32)) (i % 32) = false) → s.classify j f = .notStream →
        ring (Reg.RXR j) →
        let e := s.ringEntry (Reg.RXR j)
        let buf := leAt (s.hbm.getMany 0 (s.hbmKey e) 32) 0 5
        clean buf f.length → (buf + f.length ≤ e ∨ e + 32 ≤ buf) → Does (.rxRingFrame j ⟨f, none⟩) s fun t =>
          head (Reg.RXR j) t ∧ holds t buf f ∧ holds t (e + 8) (leBytes 2 f.length) ∧
            (isPtpEvent f = true → holds t (e + 16) (leBytes 8 (s.stamp j)))) ∧
      (s.bit (Reg.MAC_CTRL j) 0 = true → ring (Reg.TXR j) →
        let e := s.ringEntry (Reg.TXR j)
        let ent := s.hbm.getMany 0 (s.hbmKey e) 32
        let len := min (leAt ent 8 2) 9216
        0 < len → clean (leAt ent 0 5) len → Does (.txFrameSend (Fin.castSucc j)) s fun t => head (Reg.TXR j) t ∧
          Msg.ethFrame j ((List.range len).map fun i => s.hbm.get 0 (s.hbmKey (leAt ent 0 5 + i))) ∈ t.out ∧
          (t.hbm.get 0 (s.hbmKey (e + 10))).getLsbD 0 = false)) ∧
    (∀ (a : Agent) (v : Word), s.serves a Reg.TIME_CTRL →
      (Does (.timeStep a v) s fun t => t.timeNow = (s.timeNow + s.rd64 Reg.TIME_STEP_LO) % 2 ^ 64 ∧
        t.rd Reg.TIME_STEP_CNT = s.rd Reg.TIME_STEP_CNT + 1 ∧ t.bit Reg.TIME_CTRL 1 = true ∧ t.odo = s.odo) ∧
      (Does (.odoPreset a v) s fun t => t.odo = BitVec.ofNat 64 (s.rd64 Reg.TIME_ODO_SET_LO) ∧ t.time = s.time)) ∧
    (s.bit Reg.TIME_ODO_CFG 9 = true → s.pinIs 20 1 = true → s.pinIs 21 1 = true →
      ∀ (chA chB : Bool) (hA hB : BitVec 9),
      let filt := s.getF Reg.TIME_ODO_CFG 7 0
      let a := if filt < hA.toNat then chA else s.odoAb.1
      let b := if filt < hB.toNat then chB else s.odoAb.2
      let place := fun (p : Bool × Bool) => if p.1 then (if p.2 then 2 else 1) else (if p.2 then 3 else 0)
      let d := (place (a, b) + 4 - place s.odoAb) % 4
      let inv := s.bit Reg.TIME_ODO_CFG 8
      Does (.odoEdge ⟨chA, hA⟩ ⟨chB, hB⟩) s fun t => t.odoAb = (a, b) ∧
        t.odo = (if d = 1 then (if inv then s.odo - 1 else s.odo + 1) else if d = 3 then
          (if inv then s.odo + 1 else s.odo - 1) else s.odo) ∧
        t.rd Reg.TIME_ODO_ERR = if d = 2 then satInc (s.rd Reg.TIME_ODO_ERR) else s.rd Reg.TIME_ODO_ERR)

/-- From R494, R495, R500 to R507, R516, R565, R571, R604 and R607, Tables 15-9 and 15-11: a well-formed TTCP request to this chip
is answered, to its sender, with STATUS OK and its payload, and takes its effect on the service, the directory and the
flash; the console commands do the same and print the reply.  A request names its chip, or 0xFF for the instance of chip 0,
which also holds the update session (R486).
What the rules leave open of the checks of a request and of a console command is the model's choice (logs 41 and 43). -/
def Obligations.ManagementRequests : Prop :=
  ∀ (s : State) (q : Ttcp) (id : Nat) (chip : Byte), s.life.off = false → s.life.failed = false → s.svState ≠ svBoot →
    s.svState ≠ svRecovery → s.lf ≠ lfRetained → s.svc.replies = [] → id < 2 ^ 32 → (chip = 0xFF ∨ chip.toNat = s.chipId) →
    s.pos = (if chip = 0xFF then 0 else chip.toNat % 4) →
    let head := fun (type status flag len : Nat) => leBytes 4 0x31435454 ++ leBytes 1 1 ++ leBytes 1 type ++
      leBytes 1 status ++ leBytes 1 flag ++ leBytes 4 id ++ leBytes 2 len ++ leBytes 1 chip.toNat ++ leBytes 1 0
    let net := fun (c : Ttcp → Instr) (type : Nat) (p data : List Byte) (P : State → Prop) =>
      Does (c { q with bytes := head type 0 0 p.length ++ p }) s fun t => P t ∧
        ∃ src, Msg.udp q.via src 47100 q.ip.toNat q.port.toNat (head type 0 1 data.length ++ data) ∈ t.out
    let con := fun (c : Instr) (data : List Byte) (P : State → Prop) => s.consoleOn = true →
      Does c s fun t => P t ∧ Msg.console data 0 ∈ t.out
    let quiet := fun (t : State) => s.regsBut t [] ∧ t.flash = s.flash
    let dir := fun (o : Nat) (bs : List Byte) (t : State) => t.flashGet o bs.length = bs ∧ t.dirOk = true
    (net .ttcpHello 0x01 [] (s.helloPayload q.ready s.svState) quiet ∧ net .status 0x02 [] s.statusPayload quiet ∧
      ∀ r, con (.consoleStatus r) (s.statusPayload ++ s.helloPayload r s.svState) quiet) ∧
    (∀ i k, 1 ≤ k → i + k ≤ 19 → net .ports 0x03 (leBytes 1 i ++ leBytes 1 k) (s.portPayload i k) quiet) ∧
    (con (.consolePorts none) (s.portPayload 0 19) quiet ∧
      ∀ i : Fin 19, con (.consolePorts (some i)) (s.portPayload i 1) quiet) ∧
    (∀ (off : Nat) (v : Word) (r : BitVec 4), off < 2 ^ 32 → s.serves (.ranger 0) off →
      let d := s.draw 1
      let got := leBytes 4 (d.2.readReg (.ranger 0) off (d.1 == 1#1)).1.toNat
      let drew := fun (t : State) => ∀ o, t.rd o = (d.2.readReg (.ranger 0) off (d.1 == 1#1)).2.rd o
      let put := fun (t : State) => ∀ o, t.rd o = (s.regWrite (.ranger 0) off v).rd o
      net .regRead 0x04 (leBytes 4 1 ++ leBytes 4 off) got drew ∧ con (.consoleRr chip.toNat off none r) got drew ∧
        net .regWrite 0x05 (leBytes 4 1 ++ leBytes 4 off ++ leBytes 4 v.toNat) [] put ∧
        con (.consoleRw chip.toNat off v r) [] put) ∧
    (∀ i k, 1 ≤ k → k ≤ 64 → i ≤ 1023 → net .tally 0x06 (leBytes 2 i ++ leBytes 1 k) (s.tallyPayload i k) quiet) ∧
    (∀ n : Option Nat,
      let c := (s.rd Reg.TALLY_COUNT).toNat
      let k := min (n.getD 16) (min c 1024)
      con (.consoleTally n) (s.tallyPayload ((c - k) % 1024) k) quiet) ∧
    (∀ (i a m g : Word), i.toNat ≤ 2 →
      let cfg := leBytes 4 a.toNat ++ leBytes 4 m.toNat ++ leBytes 4 g.toNat
      net .netSet 0x07 (leBytes 4 i.toNat ++ cfg) [] (dir (88 + 16 * i.toNat) cfg) ∧
        con (.consoleNet i a m g) [] (dir (88 + 16 * i.toNat) cfg)) ∧
    (∀ (b : Byte) (ans : Bool), (b = 0xFF ∨ b.toNat ≤ 15) → s.svState = svIdle → s.svc.session = none → s.lf = lfRun →
      let u := if b = 0xFF then s else s.putDir 7 [b]
      let w := u.modSvc fun v => { v with base := leAt u.dir 7 1 % 16 }
      let begun := fun (t : State) => match w.startCheck ans with
        | none => t.svState = svStarting ∧ t.svc.todo = [2, 3, 4, 5, 6, 7, 8, 9, 10]
        | some c => t.svState = svIdle ∧ s.logged t 0x7013 0 (1 + 256 * c)
      net (.start · ans) 0x10 [b] [] begun ∧ con (.consoleStart (some b) ans) [] begun) ∧
    (s.lf = lfRun →
      let stops := fun (goal reason : Nat) (t : State) => t.svState = svStopping ∧ t.svc.stopTo = goal ∧ t.svc.reason = reason ∧
        t.svc.after = 0 ∧ ∀ n, n < 64 → t.bit (Reg.STR n 0) 0 = false
      let resumes := fun (t : State) => if s.svc.sameId then t.svState = svIdle ∧ s.logged t 0x7013 0 513
        else t.svState = svStarting ∧ t.svc.todo = [7, 9, 10]
      let retains := fun (t : State) => t.lf = lfRetaining ∧ t.lfStep = 1 ∧ t.svState = svStopping ∧ t.svc.stopTo = svQuiesced
      (s.svState ∈ [svRunning, svStarting, svQuiesced] →
        net .stop 0x11 [] [] (stops svIdle 0) ∧ con .consoleStop [] (stops svIdle 0)) ∧
      (s.svState ∈ [svRunning, svStarting] →
        net .quiesce 0x12 [] [] (stops svQuiesced 1) ∧ con .consoleQuiesce [] (stops svQuiesced 1)) ∧
      (s.svState = svQuiesced → net .resume 0x13 [] [] resumes ∧ con .consoleResume [] resumes) ∧
      (s.svState ∉ [svStarting, svStopping] → net .retain 0x41 [] [] retains ∧ con .consoleRetain [] retains)) ∧
    (∀ (a p : Word) (f : Nat), p.toNat < 65536 → f < 2 ^ 64 → ∀ k, 1 ≤ k → k ≤ 10 →
      let d := leBytes 4 a.toNat ++ leBytes 2 p.toNat
      net .findDest 0x18 d [] (dir 136 d) ∧ con (.consoleDest a p) [] (dir 136 d) ∧
        net .findReplay 0x19 (leBytes 8 f ++ leBytes 1 k)
          ((s.svc.held.filter fun r => decide (f ≤ r.1 ∧ r.1 < f + k)).flatMap (·.2)) quiet) ∧
    (∀ (kind len : Nat) (dg pad1 : List Byte), s.pos = 0 → (kind = 1 ∨ kind = 2 ∧ s.svState = svIdle) → len ≤ imgMax kind → dg.length = 32 →
      pad1.length = 7 → s.svc.session = none →
      net .updBegin 0x20 (leBytes 1 kind ++ pad1 ++ leBytes 8 len ++ dg) [] fun t =>
        t.svc.session = some { ip := some q.ip.toNat, kind := kind, len := len, digest := dg } ∧ dir 5 (leBytes 1 kind) t ∧
          s.logged t 0x7020 0 (kind + 256 * len)) ∧
    (∀ x : Session, s.pos = 0 → s.svc.session = some x → x.ip = some q.ip.toNat →
      (∀ (off : Nat) (d : List Byte), off % 1024 = 0 → d ≠ [] → d.length ≤ 1024 → off + d.length ≤ x.len → off < 2 ^ 64 →
        net (.updData · true) 0x21 (leBytes 8 off ++ d) [] fun t => t.flashGet (imgBase x.kind + off) d.length = d) ∧
      (s.imageDigest (imgBase x.kind) (imgHead x.kind) x.len = x.digest → s.flashGet (imgBase x.kind + 32) 32 = x.digest →
        net (.updCommit · true) 0x22 [] [] fun t => t.svc.session = none ∧ Msg.copyImage x.kind ∈ t.out ∧
          dir (if x.kind = 1 then 8 else 48) (leBytes 8 x.len) t ∧ s.logged t 0x7021 0 x.kind)) ∧
    (∀ w : Word, s.chipId = 0 → 4160 ≤ w.toNat → w.toNat ≤ 65535 →
      Does (.budget { q with bytes := head 0x30 0 0 4 ++ leBytes 4 w.toNat }) s fun t => t.out = s.out ∧
        t.rack.newBudget = some w.toNat ∧
          t.svc.budgets = s.svc.budgets ++ [(q.via.val, q.ip.toNat, q.port.toNat, head 0x30 0 1 0)]) ∧
    (∀ r, r ≤ 2 → net .ptpRole 0x31 (leBytes 1 r) [] (dir 142 (leBytes 1 r)) ∧ con (.consolePtp r) [] (dir 142 (leBytes 1 r))) ∧
    (∀ on : Bool,
      let lit := fun (t : State) => t.bit Reg.RANGER_SVC 4 = on ∧ s.regsBut t [Reg.RANGER_SVC]
      net .ident 0x40 (leBytes 1 (b2n on)) [] lit ∧ con (.consoleIdent on) [] lit) ∧
    (let resets := fun (t : State) => (s.pos ≠ 0 ∨ s.pinIs 22 1 = true → Msg.trayReset rcTtcp ∈ t.out) ∧
       (s.pos = 0 → s.pinIs 22 1 = true → t.life.t0 = s.now) ∧ (s.pos = 0 → s.pinIs 22 1 = false → t.life = s.life)
     let offs := fun (t : State) => t.lf = lfPowerdown ∧ t.lfStep = 1 ∧ t.life.kind = 1
     net .reset 0x42 [0] [] resets ∧ con .consoleReset [] resets ∧ (s.lf ≠ lfPowerdown → s.lf ≠ lfInputLoss →
       net .reset 0x42 [1] [] offs ∧ con .consolePoweroff [] offs))

/-- From R496 to R501, R511, Tables 15-5 and 15-7: chip 0's runtime numbers the findings of gaps, rings and the other chips, and sends
them in datagrams of up to 11; it refreshes the port table; a task fault stops the service, which restarts once; a drain
ends in the state asked for.  R507, R508: the boot ROM's recovery blocks.
The states from which a drain is taken and the form of the record lines are the model's choice (logs 41 and 43). -/
def Obligations.ServiceAndRecovery : Prop :=
  ∀ s : State, s.life.off = false →
    let ring := fun (t : State) (r : Nat) => t.hbm.getMany 0 (s.hbmKey (ringBase r)) 24
    let num := fun (q : Nat) (b : List Byte) =>
      let b := putLe b 8 8 q
      (q, putLe b 124 4 (crc32 (b.take 124)))
    let still := fun (r : Nat) => leAt (ring s r) 0 8 = leAt (ring s r) 8 8 ∧ leAt (ring s r) 16 8 ≤ s.svc.loss.get 0 r
    let whole := (∀ i, i < 2 → s.hbmReady i = true) ∧ ∀ w, s.hbmMark.get {} w = {}
    (∀ peers : List (List Byte), s.runtimeOn 1 = true → s.pos = 0 → whole → (∀ r, r < 8 → still r) → (∀ b, b ∈ peers → b.length = 128) →
      Does (.findingsPoll peers) s fun t => t.svc.gaps = [] ∧
        (∀ r, r < 8 → t.svc.lossRead.get 0 r = leAt (ring s r) 16 8) ∧
        let recs := (s.svc.gaps.map fun g => s.fillRecord (gapRecord g)) ++ peers
        t.svc.recseq = s.svc.recseq + recs.length ∧
          t.svc.waiting = s.svc.waiting ++ recs.zipIdx.map fun p => num (s.svc.recseq + p.2) p.1) ∧
    (∀ r, r < 8 → s.runtimeOn 1 = true → s.pos = 0 → whole → s.svc.gaps = [] → (∀ j, j < 8 → j ≠ r → still j) →
      let cons := leAt (ring s r) 8 8
      let b := s.hbm.getMany 0 (s.hbmKey (ringBase r + 0x1000 + 128 * (cons % 8192))) 128
      leAt (ring s r) 0 8 = (cons + 1) % 2 ^ 64 → leAt (ring s r) 16 8 ≤ s.svc.loss.get 0 r →
      (leAt b 5 1 = 1 ∨ leAt b 5 1 = 2 ∨ 0x80 ≤ leAt b 5 1) → Does (.findingsPoll []) s fun t =>
        t.svc.waiting = s.svc.waiting ++ [num s.svc.recseq (s.fillRecord b)] ∧ leAt (ring t r) 8 8 = (cons + 1) % 2 ^ 64) ∧
    (∀ p ps, s.svc.waiting = p :: ps → s.runtimeOn 1 = true → Does .findingsDatagram s fun t =>
      let k := min s.svc.waiting.length 11
      t.svc.waiting = s.svc.waiting.drop 11 ∧ t.svc.sent = s.svc.sent + k ∧ t.svc.datagrams = s.svc.datagrams + 1 ∧
        t.out = s.out ++ [.udp s.uplink (s.ifAddr s.uplink) 47101 (leAt s.dir 136 4) (leAt s.dir 140 2)
          (leBytes 4 0x31444654 ++ leBytes 2 k ++ leBytes 2 0 ++ leBytes 8 p.1 ++ (s.svc.waiting.take 11).flatMap (·.2))]) ∧
    (∀ others, Does (.portTableRefresh others) s fun t =>
      (∀ k, k < 4 → t.svc.ports.get [] (s.camPort k) = s.portEntry k) ∧ s.regsBut t [] ∧
        (s.pos = 0 → t.svc.ports.get [] 16 = s.uplinkEntry 16) ∧ (s.pos = 3 → t.svc.ports.get [] 17 = s.uplinkEntry 17) ∧
        ∀ p b, others = [(p, b)] → p.val / 4 ≠ s.pos → b.length = 64 → (p.val = 16 ∨ p.val = 18 → s.pos ≠ 0) →
          (p.val = 17 → s.pos ≠ 3) →
          t.svc.ports.get [] p = b) ∧
    (∀ n : Fin 144, s.svc.crews.contains n.val = true → (s.core (.tile n)).task = .stopped →
      (s.svState = svRunning ∨ s.svState = svStarting) →
      let again := ∃ t0, s.svc.faultAt = some t0 ∧ s.now < t0 + 60000000000
      Does (.taskFaultNotice n) s fun t => t.svc.faultAt = some s.now ∧ t.svc.lastStop = 2 ∧ t.svc.crews = [] ∧
        (¬again → t.svState = svQuiesced ∧ t.svc.restart = true) ∧
        (again → t.svState = svIdle ∧ t.svc.restart = false ∧ t.bit Reg.RANGER_SVC 5 = true)) ∧
    (s.svc.restart = true → s.svState = svQuiesced → s.svc.sameId = false → exec .serviceRestart s =
      .next ((s.modSvc fun v => { v with todo := [7, 9, 10], restart := false, acts := [] }).setSv svStarting)) ∧
    (∀ limit, s.svState = svStopping → (limit = true ∨ s.streamsDrained = true) → s.svc.stopTo < 8 → Does (.serviceDrainEnd limit) s fun t =>
      t.svState = s.svc.stopTo ∧ t.svc.lastStop = s.svc.reason ∧ t.svc.crews = [] ∧ t.svc.windows = [] ∧ t.svc.waiting = []) ∧
    (s.recoveryOn = true →
      let crc := fun (type : Nat) (seq : BitVec 16) (p : List Byte) =>
        BitVec.ofNat 16 (crc16 (leBytes 1 type ++ leBytes 2 seq.toNat ++ leBytes 2 p.length ++ p))
      let ack := fun (seq : BitVec 16) => Msg.romText (leBytes 1 0x06 ++ leBytes 2 seq.toNat)
      (∀ (kind len : Nat) (dg pad : List Byte), (kind = 1 ∨ kind = 2) → len ≤ imgMax kind → dg.length = 32 → pad.length = 7 →
        s.svc.session = none → s.svc.recSeq = none →
        let p := leBytes 1 kind ++ pad ++ leBytes 8 len ++ dg
        Does (.recoveryBegin 0 p (crc 1 0 p)) s fun t => ack 0 ∈ t.out ∧
          t.svc.session = some { ip := none, kind := kind, len := len, digest := dg }) ∧
      (∀ (x : Session) (seq q : BitVec 16) (r : List Byte), s.svc.session = some x → x.ip = none → s.svc.recSeq = some (q.toNat, r) →
        (∀ p : List Byte, seq = q + 1 → p.length ≤ 1024 → x.at' + p.length ≤ x.len →
          Does (.recoveryData seq p (crc 2 seq p) true) s fun t => ack seq ∈ t.out ∧
            t.flashGet (imgBase x.kind + x.at') p.length = p ∧ t.svc.session = some { x with at' := x.at' + p.length }) ∧
        (∀ p : List Byte, seq = q → p.length ≤ 1024 →
          exec (.recoveryData seq p (crc 2 seq p) true) s = .next (s.emit (.romText r))) ∧
        (∀ p : List Byte, seq = q + 1 → p.length ≤ 1024 → s.imageDigest (imgBase x.kind) (imgHead x.kind) x.len = x.digest →
          s.flashGet (imgBase x.kind + 32) 32 = x.digest →
          Does (.recoveryCommit seq p (crc 3 seq p) true) s fun t =>
            ack seq ∈ t.out ∧ t.svc.session = none ∧ Msg.copyImage x.kind ∈ t.out)) ∧
      (∀ (seq : BitVec 16) (p : List Byte), p.length ≤ 1024 → (∀ r, s.svc.recSeq ≠ some (seq.toNat, r)) →
        Does (.recoveryReboot seq p (crc 4 seq p)) s fun t => ack seq ∈ t.out ∧
          (s.pinIs 22 1 = true → Msg.trayReset rcTtcp ∈ t.out)) ∧
      (s.svc.recSeq = none → exec .recoveryAnnounce s = .next (s.emit (.romText (leBytes 7 0x4345522D344257)))) ∧
      exec .recoveryBlockTimeout s = .next (s.modSvc fun v => { v with recPart := [] }))

/-- From R517 to R520, R522, R523, R525 to R532, R535, R536, R538, R539, R544, R545, R547 to R550, R552, R555, R557 and Table 16-2: the
estimator, the calibrator and the cap loop below its cap; a change of operating point; operating points and limits stored
or refused; gating and waking of tiles and quadrants; wait counts, droop, sensors and trips.  What PWR_CAP holds before the first GRANT is the model's choice
(log 46). -/
def Obligations.PowerManagement : Prop :=
  ∀ (s : State) (a : Agent) (v : Word), s.life.off = false →
    let dark := fun (t : State) (n : Nat) => ∀ b i, b < 16 → i < 65536 → s.bankResident n b = false →
      t.spad.get 0 (n * 1048576 + b * 65536 + i) = 0
    let kept := fun (t : State) (n : Nat) => (s.tile n).gb = [] → (s.tile n).lines = [] → ∀ b i, b < 16 → i < 65536 →
      s.bankResident n b = true → t.spad.get 0 (n * 1048576 + b * 65536 + i) = s.spad.get 0 (n * 1048576 + b * 65536 + i)
    (∀ counts : List (List Nat), Does (.estimatorPeriod counts) s fun t => ∀ d, d < 8 →
      let dyn := ((List.range 4).map fun k => s.getF (Reg.PWR_COEF d k) 15 0 * (counts.getD d []).getD k 0).sum
      let raw := fun (st : Nat) (volt : Nat) => st + volt * volt * dyn / 22500000000
      let is := fun (x : Nat) => (t.dom d).rawSum = (s.dom d).rawSum + x ∧ (t.dom d).rawN = (s.dom d).rawN + 1 ∧
        (x < 65536 → t.rd (Reg.PWR_EST_RAW d) = BitVec.ofNat 32 x)
      (4 ≤ d → is (raw (s.getF (Reg.PWR_STATIC d) 15 0) 150)) ∧
        (d < 4 → s.qstate d ≤ 1 → ∀ i τ, s.hottest d = some (i, τ) →
          is (raw ((s.quad d).leak * (max 200 (min 1600 (τ - 560))).toNat / 800) (s.quad d).volt))) ∧
    (∀ ms : List (Option (BitVec 16)), Does (.calibration ms) s fun t => ∀ d, d < 8 →
      let x := s.dom d
      (x.rawN = 0 → t.dom d = x) ∧ (x.rawN ≠ 0 → (t.dom d).rawSum = 0 ∧ (t.dom d).rawN = 0) ∧
        (x.rawN ≠ 0 → ms.getD d none = none → t.dom d = { x with rawSum := 0, rawN := 0, diverge := 0 }) ∧
        ∀ m, x.rawN ≠ 0 → ms.getD d none = some m →
          let α := f32Div 0x3F800000 (f32OfInt (s.getF Reg.PWR_CAL 13 0))
          let e := f32Div (f32OfInt x.rawSum) (f32OfInt (100 * x.rawN))
          t.rd (Reg.PWR_MEAS d) = BitVec.ofNat 32 (m.toNat + 2 ^ 31) ∧
            (t.dom d).me = f32Add x.me (f32Mul α (f32Sub e x.me)) ∧
            (t.dom d).mm = f32Add x.mm (f32Mul α (f32Sub (f32Cent m.toNat) x.mm))) ∧
    (∀ (d : Fin 8) (r : BitVec 8), Does (.measMissing d r) s fun t =>
      t.bit (Reg.PWR_MEAS d) 31 = false ∧ s.logged t 0x5030 d r.toNat ∧
        s.regsBut t [Reg.PWR_MEAS d, Reg.TALLY_COUNT, Reg.TALLY_LOST]) ∧
    (s.alertOn = true → Does .capLoopIteration s fun t => ∀ q, q < 4 → t.opNow q = s.opNow q) ∧
    (s.life.shed = false → (∀ k, k ≤ 16 → s.bit (0x020000 + Reg.PEND) k = false) → s.fixedOn = false → s.alertOn = false →
      s.cap.hold = false → s.cap.ack = false → s.cap.slept = [] → s.getF Reg.PWR_CONS 11 8 = 0 → s.rack.ackDue = [] →
      (∀ r, 0x020000 ≤ r → r < 0x021000 → s.torn r = false) →
      (∀ q, q < 4 → s.qstate q = 0 → s.band q = 0 ∧ s.ceilTherm q = 15 ∧ s.ceilCap q = 15 ∧
        ∃ i τ, s.hottest q = some (i, τ) ∧ s.bandOf τ = 0) →
      0 ≤ s.capTotal → s.capTotal + s.getF Reg.PWR_HEADROOM 5 0 * 25000 ≤ s.capLimit → Does .capLoopIteration s fun t =>
        t.getF Reg.PWR_CAP_STAT 31 16 = (s.capTotal / 10000).toNat ∧ t.bit Reg.PWR_CAP_STAT 0 = false ∧
          ∀ q, q < 4 → s.qstate q = 0 → t.opReq q = s.requested q ∧ t.ceilCap q = 15 ∧
            ((s.quad q).change = none → (s.quad q).pllHold = false →
              t.opNow q = min (s.requested q) (if s.bit Reg.PWR_CTRL 4 then 15 else 11))) ∧
    (∀ (q : Fin 4) (f m l : Nat),
      let quads := fun (t : State) (x : Quad) => t.quad q = x ∧ ∀ p, p ≠ q.val → t.quad p = s.quad p
      let x := s.quad q
      (x.change = some (0, f, m, l) → Does (.railSettled q) s fun t =>
        quads t { x with change := some (1, f, m, l) } ∧ t.regs = s.regs) ∧
      (x.change = some (1, f, m, l) → Does (.pllLocked q) s fun t => t.bit Reg.CLK_LOCK q = true ∧
        quads t { x with freq := f, volt := m, leak := l, change := none, pllHold := false }) ∧
      (x.change = some (2, f, m, l) → Does (.pllLocked q) s fun t => t.bit Reg.CLK_LOCK q = true ∧
        quads t { x with freq := f, volt := m, change := some (3, f, m, l), pllHold := false }) ∧
      (x.change = some (3, f, m, l) → Does (.railSettled q) s fun t => quads t { x with change := none } ∧ t.regs = s.regs)) ∧
    (s.serves a Reg.PWR_FIXED → fld v 7 4 ≤ 11 → fld v 11 8 ≤ fld v 7 4 → Does (.fixedAck a v) s fun t =>
      t.cap = { s.cap with ack := true } ∧ t.getF Reg.PWR_FIXED 7 4 = fld v 7 4 ∧ t.inForce Reg.PWR_FIXED = s.inForce Reg.PWR_FIXED) ∧
    (∀ k : Fin 16, s.serves a (Reg.PWR_OP k) →
      (s.pointOk k v = true → Does (.opEntryWrite a k v) s fun t =>
        t.getF (Reg.PWR_OP k) 5 0 = fld v 5 0 ∧ t.getF (Reg.PWR_OP k) 15 8 = fld v 15 8 ∧
          t.getF (Reg.PWR_OP k) 27 16 = fld v 27 16 ∧ t.bit (0x020000 + Reg.PEND) k = true ∧ t.app = s.app) ∧
      (s.pointOk k v = false → exec (.opEntryWrite a k v) s = .next (s.raise 0x5001 k v.toNat))) ∧
    (s.serves a Reg.PWR_CAP →
      let ok := 40 ≤ fld v 7 0 ∧ fld v 7 0 ≤ min 175 (s.getF Reg.PWR_FUSE 23 16) ∧ floorSum (s.rd Reg.PWR_FLOOR) ≤ fld v 7 0
      (ok → Does (.capFloorWrite a false v) s fun t => t.getF Reg.PWR_CAP 7 0 = fld v 7 0 ∧ s.regsBut t [Reg.PWR_CAP]) ∧
      (¬ok → exec (.capFloorWrite a false v) s = .next (s.raise 0x5002 0 (Reg.PWR_CAP + 2 ^ 32 * v.toNat)))) ∧
    (s.serves a Reg.PWR_FLOOR →
      let ok := fld v 7 0 ≤ 175 ∧ fld v 15 8 ≤ 175 ∧ fld v 23 16 ≤ 175 ∧ floorSum v ≤ s.getF Reg.PWR_CAP 7 0
      (ok → Does (.capFloorWrite a true v) s fun t => t.getF Reg.PWR_FLOOR 23 0 = fld v 23 0 ∧ s.regsBut t [Reg.PWR_FLOOR]) ∧
      (¬ok → exec (.capFloorWrite a true v) s = .next (s.raise 0x5002 0 (Reg.PWR_FLOOR + 2 ^ 32 * v.toNat)))) ∧
    (s.serves a Reg.PWR_PRIO →
      let ok := ∀ c, c < 3 → c ∈ [fld v 1 0, fld v 3 2, fld v 5 4]
      (ok → Does (.prioWrite a v) s fun t => t.getF Reg.PWR_PRIO 5 0 = fld v 5 0 ∧ s.regsBut t [Reg.PWR_PRIO]) ∧
      (¬ok → exec (.prioWrite a v) s = .next (s.raise 0x5002 0 (Reg.PWR_PRIO + 2 ^ 32 * v.toNat)))) ∧
    (∀ n : Fin 144,
      (s.gateable n = true → s.gateWanted n = true → Does (.tileGate n) s fun t => t.gated n = true ∧ dark t n ∧ kept t n) ∧
      ((s.tile n).waking = true → (s.tile n).heldWrites = [] → (s.tile n).regQ = [] → s.heldReqs = [] → s.initBusy n = true →
        Does (.tileWakeComplete n) s fun t => t.gated n = false ∧ t.initBusy n = false ∧ (t.tile n).waking = false ∧
          dark t n)) ∧
    (∀ (i : Fin 5) (j : Nat), s.serves a (Reg.PWR_TWAKE i) → j < 32 → 32 * i.val + j < 144 →
      let m := 32 * i.val + j
      Does (.tileWake a i v) s fun t => (t.tile m).waking =
        ((s.tile m).waking || (v.getLsbD j && s.gated m && s.quadRuns m))) ∧
    (∀ q : Fin 4,
      (s.serves a (Reg.PWR_Q_CTRL q) →
        (fld v 1 0 = 1 ∨ fld v 1 0 = 2 → s.quadBusy q = false → s.qstate q = qRun → Does (.quadrantRequest a q v) s fun t =>
          t.qstate q = qEntering ∧ t.quadReq q = fld v 1 0) ∧
        (fld v 1 0 = 3 ∨ fld v 1 0 ≠ 0 ∧ s.quadBusy q = true → Does (.quadrantRequest a q v) s fun t =>
          t.qstate q = s.qstate q ∧ t.quadReq q = s.quadReq q ∧ s.logged t 0x5060 q (fld v 1 0)) ∧
        (fld v 1 0 = 0 → s.qstate q ∈ [qRetained, qGated, qTripped] → s.tripped q = false → (∀ p, p < 4 → s.qstate p ≠ qWaking) →
          (∀ p, p < q.val → s.qstate p ≤ 1) → Does (.quadrantRequest a q v) s fun t =>
            t.qstate q = qWaking ∧ t.opNow q = 0)) ∧
      (s.qstate q = qEntering → (∀ n, n ∈ quadTiles q → (s.tile n).handovers = []) →
        s.quadReq q = 1 ∧ (∀ n, n ∈ quadTiles q → s.cacheStuck n = false) ∨ s.quadReq q = 2 →
        Does (.quadrantEntryComplete q) s fun t => t.qstate q = (if s.quadReq q = 2 then qGated else qRetained) ∧
          ∀ n, n ∈ quadTiles q → (t.tile n).core.task = .idle ∧ dark t n ∧ (s.quadReq q = 1 → kept t n)) ∧
      (s.qstate q = qWaking → s.heldReqs = [] → Does (.quadrantWakeComplete q) s fun t =>
        t.qstate q = (if s.quadReq q = 0 then qRun else qEntering) ∧ ∀ n, n ∈ quadTiles q → t.initBusy n = false) ∧
      ((s.quad q).stretching = false → s.qstate q ≤ 1 → Does (.droopDetect q) s fun t =>
        (t.quad q).stretching = true ∧ t.rd (Reg.THERM_DROOP_CNT q) = satInc (s.rd (Reg.THERM_DROOP_CNT q))) ∧
      (∀ k : BitVec 32, (s.quad q).stretching = true → Does (.droopEnd q k) s fun t => (t.quad q).stretching = false ∧
        t.rd (Reg.THERM_STRETCH q) = satAdd (s.rd (Reg.THERM_STRETCH q)) (max 16 k.toNat)) ∧
      (s.serves a Reg.THERM_TRIP → s.tripped q = true → Does (.tripClear a v) s fun t =>
        t.tripped q = !(v.getLsbD q && decide (∀ i, i ∈ quadSensors q → ∃ τ, s.sensor i = some τ ∧ τ < 1520)))) ∧
    (s.chipId ≠ 0 → s.rack.loop = [] → Does .waitPeriodEnd s fun t => t.phCnt = [] ∧
      (∀ p, p < 16 → t.rd (Reg.PWR_WAIT p) = BitVec.ofNat 32 (s.phCnt.get 0 (2 * p)) ∧
        t.rd (Reg.PWR_BUSY p) = BitVec.ofNat 32 (s.phCnt.get 0 (2 * p + 1))) ∧
      (s.slotOk = true → s.bit Reg.PWR_RACK 0 = false → t.getF Reg.PWR_CAP 7 0 = s.minCap % 256)) ∧
    (∀ ts : List (Option (BitVec 12)), Does (.sensorConversion ts) s fun t => ∀ i, i < 36 →
      t.rd (Reg.THERM_SENS i) = match ts.getD i none with
        | some τ => BitVec.ofNat 32 (τ.toNat + 4096 * b2n (decide (-640 ≤ τ.toInt)))
        | none => s.rd (Reg.THERM_SENS i)) ∧
    (∀ i : Fin 36, s.sensor i ≠ none → Does (.sensorInvalid i) s fun t => t.sensor i = none ∧
      ((∀ j, j ∈ quadSensors (sensorQuad i) → j ≠ i.val → s.sensor j = none) → s.logged t 0x5053 (sensorQuad i) 0)) ∧
    (∀ i : Fin 36, Does (.thermalTrip i) s fun t =>
      let q := sensorQuad i
      t.tripped q = true ∧ t.qstate q = qTripped ∧ t.bit Reg.CLK_RST_CAUSE 7 = true ∧ t.svc.reload = true ∧
        (s.qstate q ≠ qTripped → ∀ n o, n ∈ quadTiles q → o < 1048576 → t.spad.get 0 (n * 1048576 + o) = 0))

/-- From R545, R561 to R571, R573 to R578, R581 and R582: a REPORT and an ENVELOPE enter the Cruiser's tables, a GRANT newer than the
last sets the cap, or is refused, and an acknowledged decrease lowers the ledger; a cycle joins chips and, over the budget,
asks decreases of the longest waiters; PoE grants fit their budget; the regulator alert holds OP0 until it is acknowledged.
The count for a chip not yet heard is the model's choice (log 46). -/
def Obligations.RackPower : Prop :=
  ∀ (s : State) (a : Agent) (v : Word), s.life.off = false → s.rack.loop = [] →
    (∀ (k : Fin 64) (p : Packet), s.yarderOn = true → s.lstate k = lkUp → p.dst.toNat = s.chipId → leAt p.data 0 1 = 1 →
      let c := leAt p.data 1 1
      (s.isCruiser = true → c ≤ 63 → Does (.report k p) s fun t =>
        t.cru c = { s.cru c with fresh := true, applied := (leAt p.data 2 1).testBit 0, rcap := leAt p.data 8 2, minCap := leAt p.data 10 2,
                                 waitF := leAt p.data 14 2, alert := (leAt p.data 2 1).testBit 2 } ∧ (∀ d, d ≠ c → t.cru d = s.cru d) ∧
          t.rack.envs.get 350 (c / 4) = if (leAt p.data 2 1).testBit 5 then leAt p.data 32 2 else s.rack.envs.get 350 (c / 4)) ∧
      (let g := leAt p.data 4 4
       let cap := leAt p.data 8 2
       let took := fun (t : State) => t.getF Reg.PWR_CAP 7 0 = cap % 256 ∧ t.rd Reg.PWR_GSEQ = BitVec.ofNat 32 g ∧
         t.bit Reg.PWR_RACK 0 = true ∧ t.getF Reg.PWR_RACK 31 16 = 0
       s.chipId ≠ 0 → s.slotOk = true → c = s.chipId → 0 < (BitVec.ofNat 32 g - s.rd Reg.PWR_GSEQ).toInt →
       ((leAt p.data 2 1).testBit 0 = true → ∀ bus, Does (.grant k p bus) s fun t => 
         took t ∧ t.rack.ackDue = s.rack.ackDue ++ [g]) ∧
       (∀ (fits : Bool) (others : BitVec 10), (leAt p.data 2 1).testBit 0 = false →
         let ok := if s.pos = 0 then others.toNat + cap + 100 ≤ s.getF Reg.PWR_TRAYENV 15 0 else fits = true
         (ok → Does (.grant k p ⟨fits, others⟩) s took) ∧ (¬ok → Does (.grant k p ⟨fits, others⟩) s fun t =>
           t.rd Reg.PWR_CAP = s.rd Reg.PWR_CAP ∧ t.rd Reg.PWR_GSEQ = s.rd Reg.PWR_GSEQ))) ∧
      (∀ l : Lower, s.isCruiser = true → s.rack.lowers = [l] → s.rack.raises = [] → l.chip = c → l.gseq = leAt p.data 4 4 →
        Does (.grantAck k p) s fun t => t.rack.lowers = [] ∧ (t.cru c).cap = min (s.cru c).cap (leAt p.data 8 2) ∧
          t.getF Reg.PWR_CRU_LEDGER 15 0 = t.ledger % 65536)) ∧
    (s.isCruiser = true →
      (Does .cruiserCycle s fun t => t.bit Reg.PWR_RACK 1 = true ∧ t.getF Reg.PWR_CRU_LEDGER 15 0 = t.ledger % 65536 ∧
        (∀ b, s.rack.newBudget = some b → t.rack.newBudget = none ∧ t.getF Reg.PWR_CRU_BUDGET 15 0 = b % 65536) ∧
        ∀ c, c < 64 → (t.cru c).fresh = false ∧ ((s.cru c).joined = true ∨ (s.cru c).fresh = true → (t.cru c).joined = true)) ∧
      (s.rack.newBudget = none → s.rack.lowers = [] → (∀ c, c < 64 → (s.cru c).fresh = false) →
        s.getF Reg.PWR_CRU_BUDGET 15 0 < s.ledger → Does .cruiserCycle s fun t =>
          let donors := s.ranked true (s.joined.filter fun c => decide ((s.cru c).minCap + 2 ≤ (s.cru c).cap))
          t.rack.lowers.map (fun l => (l.chip, l.cap)) =
            (donors.take ((s.ledger - s.getF Reg.PWR_CRU_BUDGET 15 0 + 1) / 2)).map fun c => (c, (s.cru c).cap - 2)) ∧
      (∀ (c : Fin 64) (l : Lower) (r : Nat), s.rack.lowers = [l] → l.chip = c.val → l.late = false → s.rack.raises = [(r, c.val)] →
        Does (.decreaseTimeout c) s fun t =>
          t.rack.lowers = [{ l with late := true }] ∧ t.rack.raises = [] ∧ t.rack.chips = s.rack.chips) ∧
      ∀ y : Fin 16, exec (.envelopeMissing y) s =
        .next { s with rack := { s.rack with envs := s.rack.envs.set 350 y.val 350 } }) ∧
    (∀ (k : Fin 4) (cls : Fin 7),
      let c : Fin 16 := ⟨4 * (s.pos % 4) + k.val, by omega⟩
      let fits := s.poeSum - s.panel.grants.get 0 c + poeGrant cls ≤ s.poeBudget
      let powered := fun (t : State) => t.pse k = 3 ∧ t.getF (Reg.MGMT_PORT_I k) 31 16 = poeGrant cls
      s.pse k = 2 → s.portClass k = cls.val → (
        (∀ b, s.pos = 0 → fits → Does (.poeGrantRequest c (some cls) b) s fun t =>
          powered t ∧ t.panel.grants.get 0 c = poeGrant cls ∧ t.getF Reg.MGMT_POE_GRANTED 15 0 = t.poeSum % 65536) ∧
        (∀ b, s.pos = 0 → ¬fits → exec (.poeGrantRequest c (some cls) b) s =
          .next (s.raise 0x5110 c (cls + 2 ^ 16 * (s.poeBudget - s.poeSum)))) ∧
        (s.pos ≠ 0 → Does (.poeGrantRequest c (some cls) true) s powered ∧
          exec (.poeGrantRequest c (some cls) false) s = .next (s.emit (.poeAsk c cls))))) ∧
    (∀ (c : Fin 16) (b : Bool), s.pos = 0 → 4 ≤ c.val → Does (.poeGrantRequest c none b) s fun t =>
      t.panel.grants.get 0 c = 0 ∧ t.getF Reg.MGMT_POE_GRANTED 15 0 = t.poeSum % 65536 ∧ s.regsBut t [Reg.MGMT_POE_GRANTED]) ∧
    (s.serves a Reg.MGMT_POE_BUDGET → Does (.poeBudgetWrite a v) s fun t =>
      t.getF Reg.MGMT_POE_BUDGET 8 0 = min (fld v 8 0) 360 ∧ (s.pos = 0 → t.poeSum ≤ t.poeBudget ∨ t.shedPick = none)) ∧
    (∀ (w : BitVec 16) (k : Fin 4), s.pos ≠ 0 → s.pse k = 3 → Does (.poeOverload ⟨w, some k⟩) s fun t =>
      t.pse k = 0 ∧ Msg.poeOff (s.camPort k) ∈ t.out) ∧
    (∀ (w : BitVec 16) (off : Option (Fin 4)) (c : Nat), s.pos = 0 → s.poeBudget < w.toNat → s.shedPick = some c →
      Does (.poeOverload ⟨w, off⟩) s fun t => t.panel.grants.get 0 c = 0 ∧ (∀ d, d ≠ c → t.panel.grants.get 0 d = s.panel.grants.get 0 d) ∧
        (c < 4 → t.pse c = 0) ∧ (4 ≤ c → Msg.poeOff c ∈ t.out)) ∧
    (s.bit Reg.PWR_ALERT 1 = true → Does .regulatorAlert s fun t => t.rd Reg.PWR_ALERT = 1 ∧
      t.rd Reg.PWR_ALERT_CNT = satInc (s.rd Reg.PWR_ALERT_CNT) ∧ (s.alertOn = false → t.rack.alertAt = s.now) ∧
      ∀ q, q < 4 → s.qstate q = 0 → t.opNow q = 0 ∧ (t.quad q).pllHold = true) ∧
    (exec .alertRelease s = .next (if s.alertOn then s.wr Reg.PWR_ALERT 7 else s.setBit Reg.PWR_ALERT 1 true)) ∧
    (s.serves a Reg.PWR_ALERT →
      (s.bit Reg.PWR_ALERT 2 = true → Does (.alertAck a v) s fun t =>
        t.rd Reg.PWR_ALERT = 2 ∧ s.logged t 0x5101 0 ((s.now - s.rack.alertAt) / 1000 % 2 ^ 32)) ∧
      (s.bit Reg.PWR_ALERT 2 = false → Does (.alertAck a v) s fun t => s.logged t 0x5102 0 0))

/-- From R640 to R651, R742, Tables 20-3 and 20-7: detection and classification of a camera port, its link, cable and current;
five turn-offs disable it; the write of its enable; the input; the buttons: IDENT toggles the attention light, SERVICE
quiesces and resumes, RESET asks for a tray reset and restarts a tray that is off; a stuck button; low hold-up.
That a cable test's lengths come with the command, and the restart from power-down, are the model's choice (logs 39 and 47). -/
def Obligations.CameraPortsAndPanel : Prop :=
  ∀ (s : State) (k : Fin 4) (a : Agent) (v : Word), s.life.off = false →
    let c := s.camPort k
    let x := s.port k
    let i := Reg.MGMT_PORT_I k
    let ctrl := Reg.MGMT_PORT_CTRL k
    (s.mayDetect k = true →
      (∀ yes, Does (.detectionCycle k .empty yes) s fun t => t.pse k = 1 ∧ t.portClass k = 7 ∧ (t.port k).told = false) ∧
      (∀ bad yes : Bool, x.told = false → Does (.detectionCycle k (if bad then .invalid else .unclassified) yes) s fun t =>
        t.pse k = 1 ∧ t.portClass k = 7 ∧ (t.port k).told = true ∧ s.logged t 0x8012 c (if bad then 0 else 1)) ∧
      (∀ (cls : Fin 7) (yes : Bool), s.pse k ≠ 2 →
        let fits := if s.pos = 0 then s.poeSum - s.panel.grants.get 0 c + poeGrant cls ≤ s.poeBudget else yes = true
        Does (.detectionCycle k (.cls cls) yes) s fun t => t.portClass k = cls ∧ (fits → t.pse k = 3 ∧
          t.getF i 31 16 = poeGrant cls ∧ (t.port k).overN = 0 ∧ (t.port k).noMps = 0) ∧ (¬fits → t.pse k = 2))) ∧
    (∀ (sp : BitVec 3) (mac : Dword) (len : Word), s.portLink k = false → Does (.phyLinkUp k sp mac len) s fun t =>
      t.portLink k = true ∧ t.getF (Reg.MGMT_PORT_STAT k) 11 9 = sp.toNat ∧ t.rd64 (Reg.MGMT_PORT_PARTNER_LO k) = mac.toNat ∧
        t.rd (Reg.MGMT_PORT_CABLE k) = len ∧ t.rd (Reg.MGMT_PORT_PAIR k) = 0 ∧ (t.port k).changed = s.timeNow ∧
        (sp.toNat < 5 → s.logged t 0x8021 c sp.toNat)) ∧
    (s.portLink k = true → Does (.phyLinkDown k) s fun t => t.portLink k = false ∧
      t.port k = { x with changed := s.timeNow, flaps := x.flaps + 1, tdr := true }) ∧
    (s.pse k = 3 → s.portLink k = false → exec (.cableTdrTimer k) s = .next (s.setPort k { x with tdr := true })) ∧
    (∀ (f : BitVec 12) (d : BitVec 16), x.tdr = true → Does (.reflectometryTestEnd k f d) s fun t =>
      t.port k = { x with tdr := false } ∧
        (f = 0 → t.rd (Reg.MGMT_PORT_PAIR k) = 0 ∧ t.tally = s.tally ∧ t.arrivals = s.arrivals) ∧
        (f ≠ 0 → t.rd (Reg.MGMT_PORT_PAIR k) = BitVec.ofNat 32 (f.toNat + 2 ^ 16 * d.toNat) ∧
          s.logged t 0x8020 c (f.toNat + 2 ^ 32 * d.toNat))) ∧
    (s.serves a ctrl →
      (∀ len, v.getLsbD 0 = s.portEn k → x.tdr = false → Does (.cableTest a k v len) s fun t =>
        if s.portLink k then t.rd (Reg.MGMT_PORT_CABLE k) = len ∧ t.rd (Reg.MGMT_PORT_PAIR k) = 0 ∧ t.port k = x
        else t.port k = { x with tdr := true }) ∧
      (v.getLsbD 0 = false → s.portEn k = true → Does (.portEnableWrite a k v) s fun t =>
        t.portEn k = false ∧ t.pse k = 0 ∧ (s.pse k = 3 → t.rd i = 0 ∧ (s.pos = 0 → t.panel.grants.get 0 c = 0) ∧
          ∀ n, n < 64 → s.bit (Reg.STR n 0) 0 = true → s.strF n 0 2 1 = k → s.strState n = 2 → t.strState n = 3)) ∧
      (v.getLsbD 0 = true → s.portEn k = false → Does (.portEnableWrite a k v) s fun t => t.portEn k = true ∧
        t.port k = { x with offs := [] } ∧ t.pse k = if s.panel.pse then 1 else s.pse k)) ∧
    (∀ (ma : BitVec 16) (mps : Bool), s.pse k = 3 →
      let high := 105 * s.getF i 31 16 < 54 * ma.toNat
      let off := high ∧ 59 ≤ x.overN ∨ mps = false ∧ 349 ≤ x.noMps
      Does (.currentSample k ma mps) s fun t =>
        (¬off → t.pse k = 3 ∧ t.getF i 15 0 = ma.toNat ∧ t.getF i 31 16 = s.getF i 31 16 ∧
          (t.port k).overN = (if high then x.overN + 1 else 0) ∧ (t.port k).noMps = (if mps then 0 else x.noMps + 1)) ∧
        (off → t.pse k = 4 ∧ t.rd i = 0 ∧
          let recent := (s.now :: x.offs).filter fun τ => decide (s.now < τ + 60000000000)
          (t.port k).offs = recent ∧ (5 ≤ recent.length → t.portEn k = false) ∧
            (recent.length < 5 → t.portEn k = s.portEn k))) ∧
    (∀ vin iin : BitVec 16, Does (.vinSample vin iin) s fun t =>
      t.rd Reg.MGMT_VIN = BitVec.ofNat 32 (vin.toNat + 2 ^ 16 * iin.toNat) ∧
        let bad := vin.toNat < 770 ∨ 1375 < vin.toNat
        t.panel.vinBad = (if bad then min (s.panel.vinBad + 1) 101 else 0) ∧
          (bad → s.panel.vinBad = 99 → s.logged t 0x8030 0 vin.toNat)) ∧
    (∀ b : Fin 3,
      let y := s.button b
      (s.buttonWired b = true → s.bit Reg.MGMT_BTN (4 + b) = false → y.down = false → s.buttonsOff = false →
        (b = 2 ∨ (s.button 2).down = false) → (b = 1 → s.lf ≠ lfRetained) → Does (.buttonPress b) s fun t =>
          t.bit Reg.MGMT_BTN b = true ∧ t.button b = { down := true } ∧ s.regsBut t [Reg.MGMT_BTN]) ∧
      (y.down = true → s.bit Reg.MGMT_BTN (4 + b) = false → Does (.buttonStuck b) s fun t =>
        t.bit Reg.MGMT_BTN (4 + b) = true ∧ t.button b = { down := true, used := true } ∧ s.logged t 0x8003 b 0)) ∧
    (s.buttonsOff = false →
      ((s.button 1).down = true → (s.button 1).used = false →
        (s.svState = svRunning → Does (.buttonHold 1) s fun t =>
          t.svState = svStopping ∧ t.svc.stopTo = svQuiesced ∧ t.panel.blank = some s.now ∧ (t.button 1).used = true) ∧
        (s.svState = svQuiesced → s.svc.sameId = false → Does (.buttonHold 1) s fun t =>
          t.svState = svStarting ∧ t.svc.todo = [7, 9, 10] ∧ t.panel.blank = some s.now)) ∧
      ((s.button 0).down = true → (s.button 0).used = false → ∀ ms, ms ≤ 3000 → Does (.buttonRelease 0 ms) s fun t =>
        t.bit Reg.RANGER_SVC 4 = !s.bit Reg.RANGER_SVC 4 ∧ t.bit Reg.MGMT_BTN 0 = false ∧ t.button 0 = {} ∧
          s.logged t 0x8001 0 0) ∧
      ((s.button 2).down = true → (s.button 2).used = false → ∀ ms, 500 ≤ ms → ms < 60000 → Does (.buttonRelease 2 ms) s fun t =>
        (s.pos ≠ 0 ∨ s.pinIs 22 1 = true → Msg.trayReset rcButton ∈ t.out) ∧
          (s.pos = 0 → s.pinIs 22 1 = true → t.life.t0 = s.now))) ∧
    (∀ ms, 500 ≤ ms → ∀ u : State, u.life.off = true → u.lf = lfPowerdown → Does (.buttonRelease 2 ms) u fun t =>
      t.life.off = false ∧ t.flash = u.flash ∧ t.spad = []) ∧
    (∀ w : BitVec 16, s.pos = 0 → w.toNat < 1400 → 770 ≤ s.getF Reg.MGMT_VIN 15 0 → s.getF Reg.MGMT_VIN 15 0 ≤ 1375 →
      exec (.holdupLow w) s = .next (s.raise 0x5220 0 w.toNat))

/-- From R249, R250, R608, R614 to R622, R625 to R628, R630, R631, R636, Tables 19-3 and 19-9: notices and restore requests are read once;
a restore ends at once for a target or a source that is not there; otherwise its target reads the golden copy, and the restore
writes the 128 rows and makes the row-group GOOD, or fails where the copy is poisoned or refused; the scrubber corrects one cell and sets a row-group LOST for two; the error log, the spares, OPSEC; the
Tally's arrival queue, ring and CLEAR. -/
def Obligations.IntegrityAndTally : Prop :=
  ∀ (s : State) (a : Agent) (v : Word), s.life.off = false →
    (∀ (k : Fin 4) (q : List Nat) (x : Nat), s.serves a (Reg.RANGER k 0x18) → s.notices.get [] k = x :: q →
      (∀ n, n < 144 → (s.tile n).noticeHeld = []) → Does (.nqRead a k) s fun t => t.notices.get [] k = q ∧ s.regsBut t []) ∧
    (∀ r q, s.serves a Reg.INTEG_RQ → s.restoreQ = r :: q → (∀ p, p ∈ s.tiles → p.2.holds = []) →
      Does (.rqRead a) s fun t => t.restoreQ = q ∧ t.tiles = s.tiles) ∧
    (s.serves a Reg.INTEG_RST_CTL →
      let n := fld v 7 0
      let src := s.getF Reg.INTEG_RST_SRC_LO 31 6 * 64 + 2 ^ 32 * s.getF Reg.INTEG_RST_SRC_HI 7 0
      let d := fld v 11 8 + 16 * fld v 16 12 + 2 ^ 24 * n
      let ends := fun (reason : Nat) => Does (.restoreGo a v) s fun t => t.restore = none ∧
        t.bit Reg.INTEG_RST_CTL 25 = false ∧ t.bit Reg.INTEG_RST_CTL 26 = true ∧ t.bit Reg.INTEG_RST_CTL 27 = true ∧
          s.logged t 0x2055 (if 143 < n then 0xFF else n) (d + 2 ^ 16 + 2 ^ 17 * reason)
      (s.restore = none → 143 < n → ends 1) ∧
      (s.restore = none → n ≤ 143 → s.reachable n = false → ends 2) ∧
      (s.restore = none → n ≤ 143 → s.reachable n = true → hbmSize < src + 2304 → ends 3) ∧
      (s.restore = none → n ≤ 143 → s.reachable n = true → src + 2304 ≤ hbmSize → Does (.restoreGo a v) s fun t => ∃ x : Restore,
        t.restore = some x ∧ x.req = ⟨n, fld v 11 8, fld v 16 12, false⟩ ∧ x.src = src ∧ x.got = none ∧
          (s.mayIssue n = true → x.tag ≠ none) ∧ t.bit Reg.INTEG_RST_CTL 25 = true) ∧
      (s.restore ≠ none → Does (.restoreGo a v) s fun t => t.restore = s.restore)) ∧
    (∀ x : Restore, s.restore = some x → x.req.tile < 144 → s.reachable x.req.tile = true → x.req.mac < 16 → x.req.rg < 32 →
      (s.tile x.req.tile).loads = [] → (s.tile x.req.tile).feeder = [] →
      let r := x.req
      let ended := fun (fail : Bool) (t : State) => t.restore = none ∧ t.bit Reg.INTEG_RST_CTL 25 = false ∧
        t.bit Reg.INTEG_RST_CTL 27 = true ∧ t.bit Reg.INTEG_RST_CTL 26 = fail ∧
          s.logged t 0x2055 r.tile (r.mac + 16 * r.rg + 2 ^ 16 * b2n fail + 2 ^ 24 * r.tile)
      (∀ bs : List Byte, x.got = some (some bs) → bs.length = 2304 → Does .restoreDone s fun t => ended false t ∧
        (∀ i, i < 128 → t.rowBits r.tile r.mac (128 * r.rg + i) =
          srcRow modeRaw 1 (s.rg r.tile r.mac r.rg).columns.1 (s.rg r.tile r.mac r.rg).columns.2 [] bs i) ∧
        t.healthOf r.tile r.mac r.rg = (if s.healthOf r.tile r.mac r.rg = rgFailed then rgFailed else rgGood)) ∧
      (x.got = some none → Does .restoreDone s fun t => ended true t ∧ t.mrow = s.mrow ∧ t.health = s.health)) ∧
    (∀ (n : Fin 144) (m : Fin 16) (rg : Fin 32), ((s.tile n).holds.contains (m.val, rg.val) = false →
        exec (.restoreTimeout n m rg) s = .next (s.apart fun s => s.engines n)) ∧
      (∀ op d, (s.tile n).feeder = [] → (s.tile n).loads = [op] → op.kind = .mrun d →
        (op.prog.get {} m.val).hold.isSome = true → (op.prog.get {} m.val).abandoned = false →
        leAt d 8 1 + (op.prog.get {} m.val).done % leAt d 9 1 = rg → (s.tile n).holds.contains (m.val, rg.val) = true →
        exec (.restoreTimeout n m rg) s = .next (s.apart fun s =>
          (((s.modTile n fun t => t.releaseHold m rg true).defer (.tile n) ⟨0x12, 1, m + 16 * rg, op.addr⟩).raise
            0x2056 n (m + 16 * rg)).engines n))) ∧
    (∀ n : Fin 144, s.bit Reg.INTEG_CTRL 0 = true → s.reachable n = true →
      (s.tile n).macroBusy ((s.tile n).mscrubPtr / 4096) = false →
      let p := (s.tile n).mscrubPtr
      let m := p / 4096
      let r := p % 4096
      (s.rg n m (r / 128)).w ≠ 0 → p < 65536 →
      (∀ c, bitsSet (s.mflip.get 0 (rowKey n m r)).toNat 153 = [c] → Does (.macroScrubRow n []) s fun t =>
        t.rowBits n m r = s.mrow.get 0 (rowKey n m r) ∧ t.mflip.get 0 (rowKey n m r) = 0 ∧
          (t.tile n).mscrubPtr = (p + 1) % 65536 ∧ t.rd Reg.INTEG_MC_CE = satInc (s.rd Reg.INTEG_MC_CE)) ∧
      (2 ≤ (bitsSet (s.mflip.get 0 (rowKey n m r)).toNat 153).length → s.healthOf n m (r / 128) < rgLost →
        Does (.macroScrubRow n []) s fun t => t.healthOf n m (r / 128) = rgLost ∧
          t.rd Reg.INTEG_MC_UE = satInc (s.rd Reg.INTEG_MC_UE) ∧ (t.tile n).mscrubPtr = (p + 1) % 65536)) ∧
    (∀ e r rew, s.serves a Reg.INTEG_LOG0 → s.errLog = e :: r → Does (.logRead a rew) s fun t => t.errLog = r ∧
      t.latches.get 0 (a.index * 8 + 1) = e.l1 ∧ t.latches.get 0 (a.index * 8 + 2) = e.l2) ∧
    (∀ k, s.errLostSec = k → k ≠ 0 → Does .logOverflowSecond s fun t => t.errLostSec = 0 ∧ s.logged t 0x2057 0 k) ∧
    (s.errLostSec = 0 → exec .logOverflowSecond s = .next s) ∧
    (s.serves a Reg.INTEG_CTRL → Does (.integCntClr a v) s fun t => ∀ i, i < 6 → t.rd (Reg.INTEG_SP_CE + 4 * i) = 0) ∧
    (s.serves a Reg.INTEG_REP_MAP →
      (s.bit Reg.INTEG_REPAIR 0 = false → exec (.repairMapWrite a v) s = .next (s.raise 0x2062 0 v.toNat)) ∧
      (s.bit Reg.INTEG_REPAIR 0 = true → fld v 7 0 ≤ 143 → (v.getLsbD 12 = true → fld v 23 16 ≤ 152 ∧ fld v 26 24 ≤ 6) →
        exec (.repairMapWrite a v) s = .next { s with
          repairs := s.repairs ++ [(fld v 7 0, fld v 11 8, v.getLsbD 12, fld v 23 16, fld v 26 24)] })) ∧
    (s.serves a Reg.INTEG_REPAIR → Does (.repairLock a v) s fun t =>
      t.bit Reg.INTEG_REPAIR 0 = false ∧ t.bit Reg.INTEG_REPAIR 1 = true ∧ t.repairs = s.repairs ∧ s.regsBut t [Reg.INTEG_REPAIR]) ∧
    (s.repairCopy ≠ none → s.opsecNow < 2 ^ 64 → Does .opsecWrite s fun t =>
      t.opsec = s.opsecNow ∧ t.opsecAt = s.now ∧ t.repairEntries = s.repairEntries ∧ t.repairCopy ≠ s.repairCopy) ∧
    (∀ (code : BitVec 16) (src : Byte) (detail : Dword),
      let r : TallyRec := { time := BitVec.ofNat 48 s.timeNow, code := code, detail := detail,
                            chip := BitVec.ofNat 8 s.chipId, src := src }
      (s.bit Reg.TALLY_CTRL 0 = false → s.arrivals = [] → Does (.eventRaise code src detail) s fun t =>
        t.tally.get {} ((s.rd Reg.TALLY_COUNT).toNat % 1024) = r ∧ t.rd Reg.TALLY_COUNT = s.rd Reg.TALLY_COUNT + 1 ∧
          ∀ i, i ≠ (s.rd Reg.TALLY_COUNT).toNat % 1024 → t.tally.get {} i = s.tally.get {} i) ∧
      (s.bit Reg.TALLY_CTRL 0 = true → s.arrivals.length < 64 → Does (.eventRaise code src detail) s fun t =>
        t.arrivals = s.arrivals ++ [r] ∧ t.tally = s.tally ∧ t.rd Reg.TALLY_COUNT = s.rd Reg.TALLY_COUNT) ∧
      (64 ≤ s.arrivals.length → Does (.eventRaise code src detail) s fun t =>
        t.arrivals = s.arrivals ∧ t.tally = s.tally ∧ t.rd Reg.TALLY_LOST = satInc (s.rd Reg.TALLY_LOST))) ∧
    (s.serves a Reg.TALLY_RAISE_HI → Does (.tallyRaise a v) s fun t =>
      s.logged t (fld (s.staged a 0) 15 0) (fld (s.staged a 0) 23 16) ((s.staged a 1).toNat + 2 ^ 32 * v.toNat)) ∧
    (s.serves a Reg.TALLY_CTRL →
      (s.arrivals = [] → Does (.tallyClear a v) s fun t => t.tally = [] ∧ t.rd Reg.TALLY_COUNT = 0 ∧
        s.regsBut t [Reg.TALLY_COUNT, Reg.TALLY_CTRL]) ∧
      (v.getLsbD 0 = true → Does (.tallyFreeze a v) s fun t => t.bit Reg.TALLY_CTRL 0 = true ∧ t.tally = s.tally ∧
        t.arrivals = s.arrivals ∧ s.regsBut t [Reg.TALLY_CTRL]) ∧
      (v.getLsbD 0 = false → Does (.tallyFreeze a v) s fun t => t.bit Reg.TALLY_CTRL 0 = false ∧ t.arrivals = [] ∧
        t.rd Reg.TALLY_COUNT = s.rd Reg.TALLY_COUNT + BitVec.ofNat 32 s.arrivals.length))

/-- From R656 to R658, R666 to R670, R673, R676 and R677, Tables 21-1, 21-5 and 21-7: which blocks either interface may write; what the Blaze
tag answers to a request that it hears, by the flags of R670, and that it answers no other; blocks read, written and locked;
record locks taken, freed and expired; a field that collapses during a write of blocks; the wired bridge's operations, the
repeat of a write and the write of SERVICE that waits; the service-request flag.
The layouts of the answers that the spec leaves to ISO/IEC 15693, and the codes of errors that R670 does not name, are the model's
choice (log 40). -/
def Obligations.BlazeTag : Prop :=
  (∀ (s : State) (b : Nat),
    (s.mayWrite 2 b = true ↔ (160 ≤ b ∧ b < 180 ∧ s.lockOwner 2 = 2) ∨ (768 ≤ b ∧ b < 1284 ∧ s.lockOwner 3 = 2) ∨
      (1284 ≤ b ∧ b < 2048 ∧ s.blz.locked.contains b = false)) ∧
    (s.mayWrite 1 b = true ↔ (160 ≤ b ∧ b < 180 ∧ s.lockOwner 2 = 1) ∨ (768 ≤ b ∧ b < 1284 ∧ s.lockOwner 3 = 1) ∨
      (64 ≤ b ∧ b < 76) ∨ (96 ≤ b ∧ b < 136) ∨ (256 ≤ b ∧ b < 768))) ∧
  (∀ (s : State) (h : RfHead),
    let addressed := h.select = false ∧ (h.uid = some Config.tagUid ∨ h.uid = none ∧ s.blz.quiet = false)
    let heard := addressed ∧ h.option = false
    let answers := fun (c : Instr) (bs : List Byte) => Does c s fun t => t.out = s.out ++ [.rfAnswer (0#8 :: bs)] ∧
      t.blaze = s.blaze ∧ t.regs = s.regs ∧ t.blz.locked = s.blz.locked
    let errs := fun (c : Instr) (code : Byte) => Does c s fun t => t.out = s.out ++ [.rfAnswer [1#8, code]] ∧
      t.blaze = s.blaze ∧ t.regs = s.regs ∧ t.blz.locked = s.blz.locked
    let blocks := fun (b k : Nat) => (List.range k).flatMap fun i => s.block (b + i)
    let holds := fun (t : State) (b : Nat) (ds : List Word) => ∀ x, x < 2048 →
      t.block x = if h : b ≤ x ∧ x < b + ds.length then leBytes 4 (ds[x - b]'(by omega)).toNat else s.block x
    let writes := fun (c : Instr) (b : Nat) (ds : List Word) =>
      ((∀ i, i < ds.length → s.mayWrite 2 (b + i) = true) → Does c s fun t =>
        t.out = s.out ++ [.rfAnswer [0#8]] ∧ holds t b ds) ∧
      (¬(∀ i, i < ds.length → s.mayWrite 2 (b + i) = true) → errs c 0x12)
    (∀ (len : BitVec 7) (mask : Dword), s.blz.quiet = false →
      (Config.tagUid.toNat % 2 ^ len.toNat = mask.toNat % 2 ^ len.toNat → h.option = false →
        answers (.inventory h len mask) (0#8 :: leBytes 8 Config.tagUid.toNat)) ∧
      (Config.tagUid.toNat % 2 ^ len.toNat ≠ mask.toNat % 2 ^ len.toNat → Does (.inventory h len mask) s fun t => t.out = s.out)) ∧
    (h.select = false → h.uid = some Config.tagUid → Does (.stayQuiet h) s fun t => t.blz.quiet = true ∧ t.out = s.out) ∧
    (addressed → h.option = true → errs (.readLocks h) 0x03) ∧
    (¬addressed → ∀ (b : BitVec 16) (ds : List Word), ∀ c, c ∈ [Instr.extendedReadSingleBlock h b,
        .extendedReadMultipleBlocks h b 0, .extendedWriteMultipleBlocks h b ds, .extendedLockBlock h b,
        .getSystemInformation h, .lockRecord h 2 b, .releaseRecord h 2 b, .readLocks h] →
      Does c s fun t => t.out = s.out ∧ t.blaze = s.blaze ∧ t.blz.locked = s.blz.locked) ∧
    (heard →
      (∀ b : BitVec 8, answers (.readSingleBlock h b) (s.block b.toNat)) ∧
      (∀ b : BitVec 16, (b.toNat < 2048 → answers (.extendedReadSingleBlock h b) (s.block b.toNat)) ∧
        (2048 ≤ b.toNat → errs (.extendedReadSingleBlock h b) 0x10)) ∧
      (∀ b k : BitVec 8, (k.toNat < 64 → b.toNat + k.toNat < 256 →
          answers (.readMultipleBlocks h b k) (blocks b.toNat (k.toNat + 1))) ∧
        (k.toNat < 64 → 256 ≤ b.toNat + k.toNat → errs (.readMultipleBlocks h b k) 0x10) ∧
        (64 ≤ k.toNat → errs (.readMultipleBlocks h b k) 0x0F)) ∧
      (∀ b k : BitVec 16, (k.toNat < 64 → b.toNat + k.toNat < 2048 →
          answers (.extendedReadMultipleBlocks h b k) (blocks b.toNat (k.toNat + 1))) ∧
        (k.toNat < 64 → 2048 ≤ b.toNat + k.toNat → errs (.extendedReadMultipleBlocks h b k) 0x10) ∧
        (64 ≤ k.toNat → errs (.extendedReadMultipleBlocks h b k) 0x0F)) ∧
      (∀ (b : BitVec 8) (d : Word), writes (.writeSingleBlock h b d) b.toNat [d]) ∧
      (∀ (b : BitVec 16) (d : Word), (b.toNat < 2048 → writes (.extendedWriteSingleBlock h b d) b.toNat [d]) ∧
        (2048 ≤ b.toNat → errs (.extendedWriteSingleBlock h b d) 0x10)) ∧
      (∀ (b : BitVec 8) (ds : List Word), (ds.length ≤ 16 → b.toNat + ds.length ≤ 256 →
          writes (.writeMultipleBlocks h b ds) b.toNat ds) ∧
        (ds.length ≤ 16 → 256 < b.toNat + ds.length → errs (.writeMultipleBlocks h b ds) 0x10) ∧
        (16 < ds.length → errs (.writeMultipleBlocks h b ds) 0x0F)) ∧
      (∀ (b : BitVec 16) (ds : List Word), (ds.length ≤ 16 → b.toNat + ds.length ≤ 2048 →
          writes (.extendedWriteMultipleBlocks h b ds) b.toNat ds) ∧
        (ds.length ≤ 16 → 2048 < b.toNat + ds.length → errs (.extendedWriteMultipleBlocks h b ds) 0x10) ∧
        (16 < ds.length → errs (.extendedWriteMultipleBlocks h b ds) 0x0F)) ∧
      (∀ b : BitVec 8, errs (.lockBlock h b) (if b.toNat < 32 then 0x11 else 0x14)) ∧
      (∀ b : BitVec 16, 1284 ≤ b.toNat → b.toNat < 2048 → s.blz.locked.contains b.toNat = false →
        Does (.extendedLockBlock h b) s fun t => t.blz.locked = s.blz.locked ++ [b.toNat] ∧ t.mayWrite 2 b.toNat = false ∧
          t.out = s.out ++ [.rfAnswer [0#8]] ∧ t.blaze = s.blaze) ∧
      (∀ b : BitVec 16, (2048 ≤ b.toNat → errs (.extendedLockBlock h b) 0x10) ∧
        (b.toNat < 32 ∨ 1284 ≤ b.toNat ∧ b.toNat < 2048 ∧ s.blz.locked.contains b.toNat = true →
          errs (.extendedLockBlock h b) 0x11) ∧
        (32 ≤ b.toNat → b.toNat < 1284 → errs (.extendedLockBlock h b) 0x14)) ∧
      answers (.getSystemInformation h) ([7#8] ++ leBytes 8 Config.tagUid.toNat ++ [0#8, 0#8, 255#8, 3#8]) ∧
      answers (.extendedGetSystemInformation h) ([7#8] ++ leBytes 8 Config.tagUid.toNat ++ [0#8, 0#8, 255#8, 7#8, 3#8]) ∧
      (∀ (r : BitVec 8) (x : BitVec 16), r.toNat = 2 ∨ r.toNat = 3 →
        (s.lockOwner r.toNat = 0 → Does (.lockRecord h r x) s fun t => t.lockOwner r.toNat = 2 ∧ t.lockSession r.toNat = x.toNat ∧
          t.out = s.out ++ [.rfAnswer ([0#8, 2#8] ++ leBytes 2 x.toNat)]) ∧
        (s.lockOwner r.toNat ≠ 0 → answers (.lockRecord h r x) (leBytes 1 (s.lockOwner r.toNat) ++ leBytes 2 (s.lockSession r.toNat))) ∧
        (s.lockOwner r.toNat = 2 → s.lockSession r.toNat = x.toNat → Does (.releaseRecord h r x) s fun t =>
          t.lockOwner r.toNat = 0 ∧ t.out = s.out ++ [.rfAnswer [0#8]]) ∧
        (¬(s.lockOwner r.toNat = 2 ∧ s.lockSession r.toNat = x.toNat) → answers (.releaseRecord h r x) [])) ∧
      (∀ r x, r.toNat ≠ 2 → r.toNat ≠ 3 → errs (.lockRecord h r x) 0x0F ∧ errs (.releaseRecord h r x) 0x0F) ∧
      answers (.readLocks h) (s.block 32 ++ s.block 33) ∧
      (∀ (b : BitVec 16) (ds : List Word) (k : Nat), ds.length ≤ 16 → b.toNat + ds.length ≤ 2048 → k ≤ ds.length →
        (∀ i, i < ds.length → s.mayWrite 2 (b.toNat + i) = true) → Does (.fieldCollapse (some (h, b, ds, k))) s fun t =>
          t.blz.field = false ∧ holds t (b.toNat + (ds.length - k)) (ds.drop (ds.length - k)))) ∧
    Does (.fieldCollapse none) s (fun t => t.blz = { s.blz with field := false, quiet := false } ∧ t.blaze = s.blaze) ∧
    (∀ notes : Bool, let r := if notes then 3 else 2
      (s.lockOwner r = 2 → s.blz.field = true → exec (.lockExpiry notes) s = .next s) ∧
      (s.lockOwner r ≠ 0 → s.lockOwner r ≠ 2 ∨ s.blz.field = false → Does (.lockExpiry notes) s fun t => t.lockOwner r = 0))) ∧
  (∀ (s : State) (a : Agent) (v : Word), s.life.off = false →
    (s.serves a Reg.MGMT_BLZ_CMD → ∀ c op, (c, op) ∈ [(Instr.blazeRead a v, 0), (.blazeWrite a v, 1),
        (.blazeLockRecord a v, 2), (.blazeReleaseRecord a v, 3)] → Does c s fun t =>
      t.bit Reg.MGMT_BLZ_STAT 0 = true ∧ t.getF Reg.MGMT_BLZ_CMD 17 16 = op ∧ t.getF Reg.MGMT_BLZ_CMD 10 0 = fld v 10 0 ∧
        t.getF Reg.MGMT_BLZ_CMD 15 12 = fld v 15 12 ∧ t.getF Reg.MGMT_BLZ_CMD 19 18 = fld v 19 18 ∧ t.blaze = s.blaze ∧
        (s.bit Reg.MGMT_BLZ_STAT 0 = false → t.blz.cmd = t.rd Reg.MGMT_BLZ_CMD) ∧
        (s.bit Reg.MGMT_BLZ_STAT 0 = true → t.blz = s.blz) ∧ s.regsBut t [Reg.MGMT_BLZ_CMD, Reg.MGMT_BLZ_STAT]) ∧
    (s.bit Reg.MGMT_BLZ_STAT 0 = false → ∀ first again, exec (.blazeOpDone first again) s = .next s) ∧
    (s.bit Reg.MGMT_BLZ_STAT 0 = true →
      let op := fld s.blz.cmd 17 16
      let b := fld s.blz.cmd 10 0
      let n := fld s.blz.cmd 15 12 + 1
      let r := fld s.blz.cmd 19 18
      let waits := op = 1 ∧ s.lockOwner 2 = 2 ∧ ∃ i, i < n ∧ 160 ≤ b + i ∧ b + i < 180
      let ends := fun (t : State) (code : Nat) => t.bit Reg.MGMT_BLZ_STAT 0 = false ∧ t.bit Reg.MGMT_BLZ_STAT 1 = true ∧
        t.getF Reg.MGMT_BLZ_STAT 15 8 = code
      let may := ∀ i, i < n → s.mayWrite 1 (b + i) = true
      (∀ again, op ≠ 1 → Does (.blazeOpDone false again) s fun t => ends t 1 ∧ t.blaze = s.blaze) ∧
      (waits → ∀ first again, exec (.blazeOpDone first again) s = .next s) ∧
      (op = 1 → ¬waits → Does (.blazeOpDone false false) s fun t => ends t 1 ∧ t.blaze = s.blaze ∧ s.logged t 0x8052 0 b) ∧
      (∀ again, s.pos = 0 → op = 0 → Does (.blazeOpDone true again) s fun t => ends t 0 ∧ t.blaze = s.blaze ∧
        ∀ i, i < n → t.rd (Reg.MGMT_BLZ_DATA i) = BitVec.ofNat 32 (leNat (s.block ((b + i) % 2048)))) ∧
      (∀ first again, s.pos = 0 → op = 1 → (first = true ∨ again = true) → b + n ≤ 2048 → may →
        Does (.blazeOpDone first again) s fun t => ends t 0 ∧ ∀ x, x < 2048 → t.block x =
          if b ≤ x ∧ x < b + n then leBytes 4 (s.rd (Reg.MGMT_BLZ_DATA (x - b))).toNat else s.block x) ∧
      (s.pos = 0 → op = 1 → ¬waits → ¬(b + n ≤ 2048 ∧ may) → Does (.blazeOpDone true true) s fun t =>
        ends t 2 ∧ t.blaze = s.blaze ∧ s.logged t 0x8052 0 (b + 2 ^ 16 * 0x12)) ∧
      (∀ again, s.pos = 0 → op = 2 → 2 ≤ r → Does (.blazeOpDone true again) s fun t =>
        (s.lockOwner r = 0 → ends t 0 ∧ t.lockOwner r = 1) ∧ (s.lockOwner r ≠ 0 → ends t 3 ∧ t.blaze = s.blaze) ∧
          t.getF Reg.MGMT_BLZ_STAT (2 * r + 13) (2 * r + 12) = t.lockOwner r % 4) ∧
      (∀ again, s.pos = 0 → op = 3 → 2 ≤ r → Does (.blazeOpDone true again) s fun t =>
        (s.lockOwner r = 1 → ends t 0 ∧ t.lockOwner r = 0) ∧ (s.lockOwner r ≠ 1 → ends t 3 ∧ t.blaze = s.blaze)) ∧
      (∀ again, s.pos = 0 → 2 ≤ op → r < 2 → Does (.blazeOpDone true again) s fun t => ends t 2 ∧ t.blaze = s.blaze)) ∧
    (∀ d, s.pos = 0 → s.recGet recService = some d →
      let f := leAt d 0 1 % 2
      (f = s.getF Reg.MGMT_BLZ_SVC 0 0 → exec .serviceFlagPoll s = .next s) ∧
      (f ≠ s.getF Reg.MGMT_BLZ_SVC 0 0 → Does .serviceFlagPoll s fun t => t.getF Reg.MGMT_BLZ_SVC 0 0 = f ∧
        t.blaze = s.blaze ∧ s.logged t 0x8053 0 (f + 2 ^ 8 * (leAt d 1 1 % 4) + 2 ^ 32 * leAt d 4 4))) ∧
    (s.pos ≠ 0 → exec .serviceFlagPoll s = .next s))

/-- From R680 to R693, R696, R698, R700, R702, R705, R709, R710, R716, Tables 22-4, 23-1 and 23-4: a character sampled at the eighth tick of
each bit and stored with its tags, a rate measured on 0x55, breaks, glitches and idle lines, the two FIFOs; the transmitter's
character, break and what follows it; pending DIV and FMT that come into force after a character (R8); a pin that changes its
function is connected to none until the hand-over ends, and an edge of it is recorded where armed.
How a character's line is carried to the receiver is the model's choice (log 42). -/
def Obligations.UartsAndPins : Prop :=
  ∀ (s : State) (a : Agent) (v : Word), s.life.off = false →
    (∀ k : Fin 2,
      let u := s.uart k
      let is := fun (t : State) (x : Uart) => t.uart k = x
      let bitR := fun (t : State) (i : Nat) => t.bit (Reg.UART k Reg.UART_EV) i = true
      let settled := s.ureg k Reg.PEND &&& 0x1F = 0
      let one := s.bit (Reg.UART k Reg.UART_CTRL) 0 = true ∧ u.inBreak = false ∧ (s.rxdPin k).isSome = true ∧ u.rxCut = none ∧
        u.was = none ∧ settled
      let entry := fun (e : Word) => setFld (setFld (setFld e 11 11 (b2n u.ovr)) 12 12 (b2n u.glt)) 31 31 1
      (∀ line : List Nat, one → s.recoveryOn = false → s.lf = lfRun → s.getF (Reg.UART k Reg.UART_CTRL) 3 2 = 0 →
        (s.uartFmt k).getLsbD 6 = false →
        let at8 := fun (i : Nat) => lineHigh line none ((16 * i + 8) * s.uartDiv k)
        let e := s.rxEntry k ((List.range (s.uartStop k)).map fun i => at8 (i + 1)) false
        (at8 0 = false → (∃ i, 1 ≤ i ∧ i ≤ s.uartStop k ∧ at8 i = true) →
          (u.rx.length < 64 → Does (.characterReceive k line) s fun t =>
            is t { u with rx := u.rx ++ [entry e], glt := false, ovr := false, idle := false } ∧
              t.tally = s.tally) ∧
          (64 ≤ u.rx.length → Does (.characterReceive k line) s fun t => is t { u with ovr := true, idle := false } ∧ bitR t 4 ∧
            t.rd (Reg.UART k Reg.UART_OVR_CNT) = satInc (s.rd (Reg.UART k Reg.UART_OVR_CNT)))) ∧
        (at8 0 = true → Does (.characterReceive k line) s fun t => is t { u with glt := true } ∧
          t.rd (Reg.UART k Reg.UART_GLT_CNT) = satInc (s.rd (Reg.UART k Reg.UART_GLT_CNT)))) ∧
      (∀ line : List Nat, u.sh = none → s.recoveryOn = false → s.lf = lfRun → s.getF (Reg.UART k Reg.UART_CTRL) 3 2 = 0 →
        Does (.characterReceive k line) s fun t => t.ureg k Reg.PEND &&& 0x1F = 0 ∧
          ∀ r, r = Reg.UART_DIV ∨ r = Reg.UART_FMT →
            t.inForce (Reg.UART k r) = if s.ureg k Reg.PEND &&& 0x1F = 0 then s.inForce (Reg.UART k r) else s.ureg k r) ∧
      (∀ D, 1 ≤ D → D ≤ 65535 → s.uartDiv k < 2 * D → one → s.recoveryOn = false → s.lf = lfRun → u.rx.length < 64 →
        s.getF (Reg.UART k Reg.UART_CTRL) 3 2 = 1 → s.uartBits k = 8 → s.uartParity k = 0 →
        Does (.characterReceive k ((List.range 9).map fun i => 16 * D * (i + 1))) s fun t =>
          is t { u with rx := u.rx ++ [entry 0x55], glt := false, ovr := false, idle := false } ∧ t.uartDiv k = D ∧ bitR t 2 ∧
            t.getF (Reg.UART k Reg.UART_CTRL) 3 2 = 0 ∧ s.logged t 0x6003 k (D + 2 ^ 16 * (128 * D % 2 ^ 24))) ∧
      (s.rxLooks k = true → Does (.glitch k) s fun t => is t { u with glt := true } ∧
        t.rd (Reg.UART k Reg.UART_GLT_CNT) = satInc (s.rd (Reg.UART k Reg.UART_GLT_CNT))) ∧
      (s.rxLooks k = true → s.getF (Reg.UART k Reg.UART_CTRL) 3 2 = 0 → u.rx.length < 64 → Does (.breakReceive k) s fun t =>
        is t { u with rx := u.rx ++ [entry 0x500], glt := false, ovr := false, inBreak := true, limitSeen := false, idle := false } ∧
          t.rd (Reg.UART k Reg.UART_FE_CNT) = satInc (s.rd (Reg.UART k Reg.UART_FE_CNT))) ∧
      (∀ n, u.inBreak = true → (n < 0xFFFF ∨ u.limitSeen = true) → Does (.breakEnd k n) s fun t =>
        is t { u with inBreak := false, limitSeen := false, idle := false } ∧
          t.rd (Reg.UART k Reg.UART_BRKLEN) = BitVec.ofNat 32 (min n 0xFFFF) ∧ bitR t 1 ∧ s.logged t 0x6002 k (min n 0xFFFF)) ∧
      (u.inBreak = true → u.limitSeen = false → Does (.breakLengthLimit k) s fun t =>
        is t { u with limitSeen := true } ∧ s.logged t 0x6006 k 0) ∧
      (u.inBreak = false ∨ u.limitSeen = true → exec (.breakLengthLimit k) s = .next s) ∧
      (s.rxLooks k = true → u.idle = false → Does (.idleLine k) s fun t => is t { u with idle := true } ∧ bitR t 0 ∧
        s.regsBut t [Reg.UART k Reg.UART_EV]) ∧
      (∀ e r, s.serves a (Reg.UART k Reg.UART_RX) → u.rx = e :: r → (s.readReg a (Reg.UART k Reg.UART_RX) false).1 = e ∧
        Does (.rxRead a k) s fun t => is t { u with rx := r } ∧ s.regsBut t []) ∧
      (s.serves a (Reg.UART k Reg.UART_TX) →
        (64 ≤ u.tx.length → Does (.txWrite a k v) s fun t => is t u ∧ bitR t 5) ∧
        (u.tx.length < 64 → u.sh ≠ none ∨ u.breakUntil ≠ none → Does (.txWrite a k v) s fun t =>
          is t { u with tx := u.tx ++ [v.setWidth 8] } ∧ s.regsBut t []) ∧
        (u.tx.length < 64 → u.sh = none → u.breakUntil = none → u.brk = none → settled → Does (.txWrite a k v) s fun t =>
          s.regsBut t [] ∧ (if s.bit (Reg.UART k Reg.UART_CTRL) 1 then
            is t { u with tx := (u.tx ++ [v.setWidth 8]).tail, sh := some ((u.tx ++ [v.setWidth 8]).headD 0, s.now) }
          else is t { u with tx := u.tx ++ [v.setWidth 8] }))) ∧
      (∀ c start, u.sh = some (c, start) → u.breakUntil = none →
        let char := Msg.uartChar k (c &&& BitVec.ofNat 8 (2 ^ s.uartBits k - 1)) (fld (s.uartFmt k) 5 0)
        (u.brk = none → u.txCut = none → s.txdOn k = true → Does (.characterTransmit k) s fun t =>
          t.out = s.out ++ [char] ∧ (u.tx = [] → bitR t 6) ∧
            (settled → is t (match u.tx with
              | d :: r => if s.bit (Reg.UART k Reg.UART_CTRL) 1 then { u with tx := r, sh := some (d, s.now) } else { u with sh := none }
              | [] => { u with sh := none }))) ∧
        (∀ bits, u.brk = some bits → u.txCut = none → s.txdOn k = true → settled → Does (.characterTransmit k) s fun t =>
          t.out = s.out ++ [char, .uartBreak k bits] ∧
            is t { u with sh := none, brk := none, breakUntil := some (s.now + 160 * (bits + 1) * s.uartDiv k) }) ∧
        (∀ τ, u.txCut = some τ → start ≤ τ → u.brk = none → Does (.characterTransmit k) s fun t =>
          t.out = s.out ∧ t.bit (Reg.UART k Reg.UART_STAT) 19 = true)) ∧
      (u.sh = none → exec (.characterTransmit k) s = .next s) ∧
      (s.serves a (Reg.UART k Reg.UART_BRK) → u.breakUntil = none → u.brk = none →
        let bits := max 1 (fld v 15 0)
        (u.sh ≠ none → Does (.sendBreak a k v) s fun t => is t { u with brk := some bits } ∧ t.out = s.out ∧
          t.rd (Reg.UART k Reg.UART_BRK) = BitVec.ofNat 32 bits) ∧
        (u.sh = none → settled → Does (.sendBreak a k v) s fun t =>
          is t { u with breakUntil := some (s.now + 160 * (bits + 1) * s.uartDiv k) } ∧
            t.rd (Reg.UART k Reg.UART_BRK) = BitVec.ofNat 32 bits ∧
            (s.txdOn k = true → t.out = s.out ++ [.uartBreak k bits]) ∧ (s.txdOn k = false → t.out = s.out))) ∧
      (s.serves a (Reg.UART k Reg.UART_CTRL) →
        Does (.rxFlush a k v) s (fun t => (t.uart k).rx = [] ∧ (u.sh ≠ none → is t { u with rx := [] })) ∧
        Does (.txFlush a k v) s fun t => (t.uart k).tx = [] ∧ (t.uart k).rx = u.rx ∧ (t.uart k).sh = u.sh)) ∧
    (∀ i : Fin 32,
      (s.serves a (Reg.PINS_CFG i) →
        (pinHasFn i (fld v 2 0) = false → exec (.funcHandover a i v) s = .next (s.raise 0x6011 i v.toNat)) ∧
        (pinHasFn i (fld v 2 0) = true → s.torn (Reg.PINS_CFG i) = false → Does (.funcHandover a i v) s fun t =>
          t.getF (Reg.PINS_CFG i) 2 0 = fld v 2 0 ∧
            t.getF (Reg.PINS_CFG i) 5 4 = (if fld v 5 4 = 3 then 0 else fld v 5 4) ∧
            (fld v 2 0 ≠ s.getF (Reg.PINS_CFG i) 2 0 ∨ s.pinBusy i = true → t.pinFn i = none) ∧
            (fld v 2 0 = s.getF (Reg.PINS_CFG i) 2 0 → t.pinFn i = s.pinFn i) ∧ t.gpioIn.getLsbD i = s.gpioIn.getLsbD i)) ∧
      (s.torn (Reg.PINS_CFG i) = false →
        let drives := s.getF (Reg.PINS_CFG i) 2 0 = 0 ∧ s.bit Reg.PINS_GPIO_OE i = true
        Does (.handoverConnect i) s fun t => t.pinFn i = some (s.getF (Reg.PINS_CFG i) 2 0) ∧
          (¬drives → s.regsBut t [Reg.PINS_HO_BUSY]) ∧
          (drives → s.pinBusy i = true → t.pinHigh i = s.bit Reg.PINS_GPIO_OUT i)) ∧
      (∀ level : Bool,
        let armed := s.bit (if level then Reg.PINS_GPIO_RISE else Reg.PINS_GPIO_FALL) i
        Does (.gpioEdge i level) s fun t => t.pinHigh i = level ∧ (∀ j, j ≠ i.val → t.pinHigh j = s.pinHigh j) ∧
          t.bit Reg.PINS_GPIO_EV i = (s.bit Reg.PINS_GPIO_EV i || (armed && s.pinHigh i != level && !s.pinBusy i)) ∧
          (s.bit Reg.PINS_GPIO_EV i = false → armed = true → s.pinHigh i ≠ level → s.pinBusy i = false →
            s.gpioTold.1.getLsbD i = false → (∀ t0, s.gpioTold.2 = some t0 → t0 + 1000000 ≤ s.now) →
            s.logged t 0x6010 0 (t.rd Reg.PINS_GPIO_EV).toNat)))
end

