-- ==== Sys2Proof/Laws/Store.lean ====
section
/-! SUPPORT. What the operations of the sparse store do, and that each of them keeps its canonical form. -/

namespace Sys2Proof

variable {α : Type} {d : α} {k k' : Nat} {v w : α}

@[simp] theorem SMap.get_nil : SMap.get d [] k = d := rfl

/-- A dropped key reads as the default. -/
theorem SMap.get_drop_same (m : SMap α) : (m.drop k).get d k = d := by
  induction m with
  | nil => rfl
  | cons p m ih =>
    obtain ⟨a, b⟩ := p
    by_cases h : k = a <;> simp [SMap.drop, SMap.get, h] <;> simpa [h] using ih

/-- Other keys read as before. -/
theorem SMap.get_drop_other (m : SMap α) (h : k' ≠ k) : (m.drop k).get d k' = m.get d k' := by
  induction m with
  | nil => rfl
  | cons p m ih =>
    obtain ⟨a, b⟩ := p
    by_cases h1 : k = a
    · subst h1; simp [SMap.drop, SMap.get, h, ih]
    · by_cases h2 : k' = a
      · simp [SMap.drop, SMap.get, h1, h2]
      · simp [SMap.drop, SMap.get, h1, h2, ih]

/-- A put key reads as its value where the store does not list it. -/
theorem SMap.get_put_same (m : SMap α) : ((m.drop k).put k v).get d k = v := by
  induction m with
  | nil => simp [SMap.drop, SMap.put, SMap.get]
  | cons p m ih =>
    obtain ⟨a, b⟩ := p
    by_cases h1 : k = a
    · simpa [SMap.drop, h1] using h1 ▸ ih
    · by_cases h2 : k < a
      · simp [SMap.drop, SMap.put, SMap.get, h1, h2]
      · simp [SMap.drop, SMap.put, SMap.get, h1, h2, ih]

/-- Other keys read as before. -/
theorem SMap.get_put_other (m : SMap α) (h : k' ≠ k) : (m.put k v).get d k' = m.get d k' := by
  induction m with
  | nil => simp [SMap.put, SMap.get, h]
  | cons p m ih =>
    obtain ⟨a, b⟩ := p
    by_cases h2 : k < a
    · simp [SMap.put, SMap.get, h, h2]
    · by_cases h3 : k' = a
      · simp [SMap.put, SMap.get, h2, h3]
      · simp [SMap.put, SMap.get, h2, h3, ih]

theorem SMap.drop_drop (m : SMap α) : (m.drop k).drop k = m.drop k := by
  induction m with
  | nil => rfl
  | cons p m ih =>
    obtain ⟨a, b⟩ := p
    by_cases h : k = a
    · subst h; simpa [SMap.drop] using ih
    · simp [SMap.drop, h, ih]

theorem SMap.drop_put (m : SMap α) : ((m.drop k).put k v).drop k = m.drop k := by
  induction m with
  | nil => simp [SMap.drop, SMap.put]
  | cons p m ih =>
    obtain ⟨a, b⟩ := p
    by_cases h : k = a
    · subst h; simpa [SMap.drop] using ih
    · by_cases h2 : k < a
      · simp [SMap.drop, SMap.put, h, h2, SMap.drop_drop]
      · simp [SMap.drop, SMap.put, h, h2, ih]

variable [DecidableEq α]

/-- A written key reads as written. -/
@[simp] theorem SMap.get_set_same (m : SMap α) : (m.set d k v).get d k = v := by
  by_cases h : v = d
  · simp [SMap.set, h, SMap.get_drop_same]
  · simp [SMap.set, h, SMap.get_put_same]

/-- A write leaves every other key alone, whatever an unlisted one reads as. -/
theorem SMap.get_set_other {d' : α} (m : SMap α) (h : k' ≠ k) : (m.set d k v).get d' k' = m.get d' k' := by
  by_cases hv : v = d
  · simp [SMap.set, hv, SMap.get_drop_other m h]
  · simp [SMap.set, hv, SMap.get_put_other _ h, SMap.get_drop_other m h]

theorem SMap.get_set (m : SMap α) : (m.set d k v).get d k' = if k' = k then v else m.get d k' := by
  by_cases h : k' = k
  · subst h; simp
  · simp [h, SMap.get_set_other m h]

/-- The later of two writes of a key stands. -/
@[simp] theorem SMap.set_set (m : SMap α) : (m.set d k v).set d k w = m.set d k w := by
  have h : (m.set d k v).drop k = m.drop k := by
    by_cases hv : v = d
    · simp [SMap.set, hv, SMap.drop_drop]
    · simp [SMap.set, hv, SMap.drop_put]
  simp only [SMap.set] at h
  simp only [SMap.set, h]

/-! ### The canonical form -/

/-- The form as a statement about the list: keys rise strictly, and no value is the default. -/
theorem SMap.wf_iff (m : SMap α) :
    m.wf d = true ↔ m.Pairwise (fun p q => p.1 < q.1) ∧ ∀ p ∈ m, p.2 ≠ d := by
  have key : ∀ m : SMap α, m.rising = true ↔ m.Pairwise fun p q => p.1 < q.1 := by
    intro m
    induction m with
    | nil => simp [SMap.rising]
    | cons p m ih =>
      cases m with
      | nil => simp [SMap.rising]
      | cons q m =>
        simp only [SMap.rising, Bool.and_eq_true, decide_eq_true_eq, ih, List.pairwise_cons]
        constructor
        · rintro ⟨h, hq, hm⟩
          refine ⟨?_, hq, hm⟩
          intro r hr
          rcases List.mem_cons.mp hr with rfl | hr
          · exact h
          · exact Nat.lt_trans h (hq r hr)
        · rintro ⟨h, hq, hm⟩
          exact ⟨h q (by simp), hq, hm⟩
  simp [SMap.wf, key]

omit [DecidableEq α] in
theorem SMap.mem_drop (m : SMap α) (p : Nat × α) : p ∈ m.drop k ↔ p ∈ m ∧ p.1 ≠ k := by
  induction m with
  | nil => simp [SMap.drop]
  | cons q m ih =>
    obtain ⟨a, b⟩ := q
    by_cases h : k = a
    · subst h
      simp only [SMap.drop, if_true, ih, List.mem_cons]
      constructor
      · rintro ⟨h1, h2⟩; exact ⟨.inr h1, h2⟩
      · rintro ⟨rfl | h1, h2⟩
        · exact absurd rfl h2
        · exact ⟨h1, h2⟩
    · simp only [SMap.drop, h, if_false, List.mem_cons, ih]
      constructor
      · rintro (rfl | ⟨h1, h2⟩)
        · exact ⟨.inl rfl, fun e => h e.symm⟩
        · exact ⟨.inr h1, h2⟩
      · rintro ⟨rfl | h1, h2⟩
        · exact .inl rfl
        · exact .inr ⟨h1, h2⟩

omit [DecidableEq α] in
theorem SMap.drop_sublist (m : SMap α) : (m.drop k).Sublist m := by
  induction m with
  | nil => exact .slnil
  | cons q m ih =>
    obtain ⟨a, b⟩ := q
    by_cases h : k = a
    · simp only [SMap.drop, h, if_true]; exact (h ▸ ih).cons _
    · simp only [SMap.drop, h, if_false]; exact ih.cons_cons _

omit [DecidableEq α] in
theorem SMap.mem_put (m : SMap α) (p : Nat × α) : p ∈ m.put k v ↔ p = (k, v) ∨ p ∈ m := by
  induction m with
  | nil => simp [SMap.put]
  | cons q m ih =>
    obtain ⟨a, b⟩ := q
    by_cases h : k < a
    · simp [SMap.put, h]
    · simp [SMap.put, h, ih, or_left_comm]

omit [DecidableEq α] in
theorem SMap.put_pairwise (m : SMap α) (hm : m.Pairwise fun p q => p.1 < q.1) (hk : ∀ p ∈ m, p.1 ≠ k) :
    (m.put k v).Pairwise fun p q => p.1 < q.1 := by
  induction m with
  | nil => simp [SMap.put]
  | cons q m ih =>
    obtain ⟨a, b⟩ := q
    rw [List.pairwise_cons] at hm
    by_cases h : k < a
    · simp only [SMap.put, h, if_true, List.pairwise_cons, List.mem_cons]
      refine ⟨?_, hm⟩
      rintro p (rfl | hp)
      · exact h
      · exact Nat.lt_trans h (hm.1 p hp)
    · simp only [SMap.put, h, if_false, List.pairwise_cons]
      refine ⟨?_, ih hm.2 fun p hp => hk p (List.mem_cons_of_mem _ hp)⟩
      intro p hp
      rcases (SMap.mem_put m p).mp hp with rfl | hp
      · have := hk (a, b) (by simp)
        simp only at this ⊢
        omega
      · exact hm.1 p hp

/-- A write keeps the canonical form. -/
theorem SMap.set_wf (m : SMap α) (h : m.wf d = true) : (m.set d k v).wf d = true := by
  rw [SMap.wf_iff] at h ⊢
  have hd : (m.drop k).Pairwise fun p q => p.1 < q.1 := h.1.sublist m.drop_sublist
  by_cases hv : v = d
  · simp only [SMap.set, hv, if_true]
    exact ⟨hd, fun p hp => h.2 p (m.drop_sublist.subset hp)⟩
  · simp only [SMap.set, hv, if_false]
    refine ⟨SMap.put_pairwise _ hd fun p hp => ((SMap.mem_drop m p).mp hp).2, ?_⟩
    intro p hp
    rcases (SMap.mem_put _ p).mp hp with rfl | hp
    · exact hv
    · exact h.2 p (m.drop_sublist.subset hp)

/-- Forgetting a range keeps it. -/
theorem SMap.clear_wf (m : SMap α) (lo n : Nat) (h : m.wf d = true) : (m.clear lo n).wf d = true := by
  rw [SMap.wf_iff] at h ⊢
  exact ⟨h.1.sublist List.filter_sublist, fun p hp => h.2 p (List.mem_filter.mp hp).1⟩

/-- Writing consecutive keys keeps it. -/
theorem SMap.setMany_wf (vs : List α) : ∀ (m : SMap α) (k : Nat), m.wf d = true → (m.setMany d k vs).wf d = true := by
  induction vs with
  | nil => exact fun m _ h => h
  | cons v vs ih => exact fun m k h => ih _ _ (SMap.set_wf m h)

/-- Keys outside the written range read as before. -/
theorem SMap.get_setMany_other (vs : List α) : ∀ (m : SMap α) (k : Nat), k' < k ∨ k + vs.length ≤ k' →
    (m.setMany d k vs).get d k' = m.get d k' := by
  induction vs with
  | nil => exact fun _ _ _ => rfl
  | cons v vs ih =>
    intro m k h
    simp only [List.length_cons] at h
    rw [SMap.setMany, ih _ _ (by omega), SMap.get_set_other _ (by omega)]

/-- Two canonical stores that read alike are equal. -/
theorem SMap.ext_of_wf : ∀ (m n : SMap α), m.wf d = true → n.wf d = true → (∀ k, m.get d k = n.get d k) → m = n := by
  have head : ∀ (p : Nat × α) (m : SMap α) (j : Nat), (p :: m).Pairwise (fun p q => p.1 < q.1) → j < p.1 →
      SMap.get d (p :: m) j = d := by
    intro p m j h hj
    have : ∀ l : SMap α, (∀ q ∈ l, j < q.1) → SMap.get d l j = d := by
      intro l
      induction l with
      | nil => exact fun _ => rfl
      | cons q l ih =>
        intro hl
        have h1 : j ≠ q.1 := Nat.ne_of_lt (hl q (by simp))
        obtain ⟨a, b⟩ := q
        simp only at h1
        simp [SMap.get, h1, ih fun r hr => hl r (List.mem_cons_of_mem _ hr)]
    refine this _ ?_
    intro q hq
    rcases List.mem_cons.mp hq with rfl | hq
    · exact hj
    · exact Nat.lt_trans hj ((List.pairwise_cons.mp h).1 q hq)
  have tail : ∀ (p : Nat × α) (m : SMap α), SMap.wf d (p :: m) = true → SMap.wf d m = true := by
    intro p m h
    rw [SMap.wf_iff] at h ⊢
    exact ⟨(List.pairwise_cons.mp h.1).2, fun q hq => h.2 q (List.mem_cons_of_mem _ hq)⟩
  intro m
  induction m with
  | nil =>
    intro n _ hn h
    cases n with
    | nil => rfl
    | cons q n =>
      have := h q.1
      have hq := ((SMap.wf_iff _).mp hn).2 q (by simp)
      obtain ⟨a, b⟩ := q
      simp [SMap.get] at this hq
      exact absurd this.symm hq
  | cons p m ih =>
    intro n hm hn h
    cases n with
    | nil =>
      have := h p.1
      have hp := ((SMap.wf_iff _).mp hm).2 p (by simp)
      obtain ⟨a, b⟩ := p
      simp [SMap.get] at this hp
      exact absurd this hp
    | cons q n =>
      have hm' := (SMap.wf_iff _).mp hm
      have hn' := (SMap.wf_iff _).mp hn
      have hpq : p.1 = q.1 := by
        rcases Nat.lt_trichotomy p.1 q.1 with hlt | heq | hgt
        · have h1 := h p.1
          rw [head q n p.1 hn'.1 hlt] at h1
          have hp := hm'.2 p (by simp)
          obtain ⟨a, b⟩ := p
          simp [SMap.get] at h1 hp
          exact absurd h1 hp
        · exact heq
        · have h1 := h q.1
          rw [head p m q.1 hm'.1 hgt] at h1
          have hq := hn'.2 q (by simp)
          obtain ⟨a, b⟩ := q
          simp [SMap.get] at h1 hq
          exact absurd h1.symm hq
      have hv : p.2 = q.2 := by
        have h1 := h p.1
        obtain ⟨a, b⟩ := p
        obtain ⟨a', b'⟩ := q
        simp only at hpq
        subst hpq
        simpa [SMap.get] using h1
      have hpe : p = q := Prod.ext hpq hv
      subst hpe
      congr 1
      refine ih n (tail p m hm) (tail p n hn) ?_
      intro k
      have h1 := h k
      obtain ⟨a, b⟩ := p
      by_cases hk : k = a
      · subst hk
        have lo : ∀ l : SMap α, (∀ q ∈ l, k < q.1) → SMap.get d l k = d := by
          intro l
          induction l with
          | nil => exact fun _ => rfl
          | cons q l ih =>
            intro hl
            have h2 : k ≠ q.1 := Nat.ne_of_lt (hl q (by simp))
            obtain ⟨a, b⟩ := q
            simp only at h2
            simp [SMap.get, h2, ih fun r hr => hl r (List.mem_cons_of_mem _ hr)]
        rw [lo m (List.pairwise_cons.mp hm'.1).1, lo n (List.pairwise_cons.mp hn'.1).1]
      · simpa [SMap.get, hk] using h1

end Sys2Proof
end

