-- ==== Sys2Proof/Laws/State.lean ====
section
/-! SUPPORT. Each field of the state after each update of the state, and what is read back after a write. -/

namespace Sys2Proof.Machine
open Sys2Proof

variable (s : State)


/-! ### State.wr -/

@[simp] theorem State.wr_pending (off : Nat) (v : Word) : (s.wr off v).pending = s.pending := rfl
@[simp] theorem State.wr_now (off : Nat) (v : Word) : (s.wr off v).now = s.now := rfl
@[simp] theorem State.wr_draws (off : Nat) (v : Word) : (s.wr off v).draws = s.draws := rfl
@[simp] theorem State.wr_out (off : Nat) (v : Word) : (s.wr off v).out = s.out := rfl
@[simp] theorem State.wr_app (off : Nat) (v : Word) : (s.wr off v).app = s.app := rfl
@[simp] theorem State.wr_votes (off : Nat) (v : Word) : (s.wr off v).votes = s.votes := rfl
@[simp] theorem State.wr_voteRuns (off : Nat) (v : Word) : (s.wr off v).voteRuns = s.voteRuns := rfl
@[simp] theorem State.wr_voteFirst (off : Nat) (v : Word) : (s.wr off v).voteFirst = s.voteFirst := rfl
@[simp] theorem State.wr_voteRepairs (off : Nat) (v : Word) : (s.wr off v).voteRepairs = s.voteRepairs := rfl
@[simp] theorem State.wr_latches (off : Nat) (v : Word) : (s.wr off v).latches = s.latches := rfl
@[simp] theorem State.wr_tally (off : Nat) (v : Word) : (s.wr off v).tally = s.tally := rfl
@[simp] theorem State.wr_arrivals (off : Nat) (v : Word) : (s.wr off v).arrivals = s.arrivals := rfl
@[simp] theorem State.wr_limits (off : Nat) (v : Word) : (s.wr off v).limits = s.limits := rfl
@[simp] theorem State.wr_tclk (off : Nat) (v : Word) : (s.wr off v).tclk = s.tclk := rfl
@[simp] theorem State.wr_nclk (off : Nat) (v : Word) : (s.wr off v).nclk = s.nclk := rfl
@[simp] theorem State.wr_tiles (off : Nat) (v : Word) : (s.wr off v).tiles = s.tiles := rfl
@[simp] theorem State.wr_rangers (off : Nat) (v : Word) : (s.wr off v).rangers = s.rangers := rfl
@[simp] theorem State.wr_notices (off : Nat) (v : Word) : (s.wr off v).notices = s.notices := rfl
@[simp] theorem State.wr_barriers (off : Nat) (v : Word) : (s.wr off v).barriers = s.barriers := rfl
@[simp] theorem State.wr_spad (off : Nat) (v : Word) : (s.wr off v).spad = s.spad := rfl
@[simp] theorem State.wr_spMark (off : Nat) (v : Word) : (s.wr off v).spMark = s.spMark := rfl
@[simp] theorem State.wr_spTag (off : Nat) (v : Word) : (s.wr off v).spTag = s.spTag := rfl
@[simp] theorem State.wr_mrow (off : Nat) (v : Word) : (s.wr off v).mrow = s.mrow := rfl
@[simp] theorem State.wr_mflip (off : Nat) (v : Word) : (s.wr off v).mflip = s.mflip := rfl
@[simp] theorem State.wr_rgRec (off : Nat) (v : Word) : (s.wr off v).rgRec = s.rgRec := rfl
@[simp] theorem State.wr_health (off : Nat) (v : Word) : (s.wr off v).health = s.health := rfl
@[simp] theorem State.wr_macCnt (off : Nat) (v : Word) : (s.wr off v).macCnt = s.macCnt := rfl
@[simp] theorem State.wr_restoreQ (off : Nat) (v : Word) : (s.wr off v).restoreQ = s.restoreQ := rfl
@[simp] theorem State.wr_restore (off : Nat) (v : Word) : (s.wr off v).restore = s.restore := rfl
@[simp] theorem State.wr_errLog (off : Nat) (v : Word) : (s.wr off v).errLog = s.errLog := rfl
@[simp] theorem State.wr_errLostSec (off : Nat) (v : Word) : (s.wr off v).errLostSec = s.errLostSec := rfl
@[simp] theorem State.wr_repairs (off : Nat) (v : Word) : (s.wr off v).repairs = s.repairs := rfl
@[simp] theorem State.wr_charges (off : Nat) (v : Word) : (s.wr off v).charges = s.charges := rfl
@[simp] theorem State.wr_opsecAt (off : Nat) (v : Word) : (s.wr off v).opsecAt = s.opsecAt := rfl
@[simp] theorem State.wr_hbm (off : Nat) (v : Word) : (s.wr off v).hbm = s.hbm := rfl
@[simp] theorem State.wr_hbmMark (off : Nat) (v : Word) : (s.wr off v).hbmMark = s.hbmMark := rfl
@[simp] theorem State.wr_hbmCtl (off : Nat) (v : Word) : (s.wr off v).hbmCtl = s.hbmCtl := rfl
@[simp] theorem State.wr_sram (off : Nat) (v : Word) : (s.wr off v).sram = s.sram := rfl
@[simp] theorem State.wr_flash (off : Nat) (v : Word) : (s.wr off v).flash = s.flash := rfl
@[simp] theorem State.wr_txns (off : Nat) (v : Word) : (s.wr off v).txns = s.txns := rfl
@[simp] theorem State.wr_txnOrd (off : Nat) (v : Word) : (s.wr off v).txnOrd = s.txnOrd := rfl
@[simp] theorem State.wr_links (off : Nat) (v : Word) : (s.wr off v).links = s.links := rfl
@[simp] theorem State.wr_winWait (off : Nat) (v : Word) : (s.wr off v).winWait = s.winWait := rfl
@[simp] theorem State.wr_heldReqs (off : Nat) (v : Word) : (s.wr off v).heldReqs = s.heldReqs := rfl
@[simp] theorem State.wr_closeNotes (off : Nat) (v : Word) : (s.wr off v).closeNotes = s.closeNotes := rfl
@[simp] theorem State.wr_streams (off : Nat) (v : Word) : (s.wr off v).streams = s.streams := rfl
@[simp] theorem State.wr_time (off : Nat) (v : Word) : (s.wr off v).time = s.time := rfl
@[simp] theorem State.wr_odo (off : Nat) (v : Word) : (s.wr off v).odo = s.odo := rfl
@[simp] theorem State.wr_odoAb (off : Nat) (v : Word) : (s.wr off v).odoAb = s.odoAb := rfl
@[simp] theorem State.wr_ingest (off : Nat) (v : Word) : (s.wr off v).ingest = s.ingest := rfl
@[simp] theorem State.wr_blaze (off : Nat) (v : Word) : (s.wr off v).blaze = s.blaze := rfl
@[simp] theorem State.wr_faultCodes (off : Nat) (v : Word) : (s.wr off v).faultCodes = s.faultCodes := rfl
@[simp] theorem State.wr_doms (off : Nat) (v : Word) : (s.wr off v).doms = s.doms := rfl
@[simp] theorem State.wr_quads (off : Nat) (v : Word) : (s.wr off v).quads = s.quads := rfl
@[simp] theorem State.wr_cap (off : Nat) (v : Word) : (s.wr off v).cap = s.cap := rfl
@[simp] theorem State.wr_phCnt (off : Nat) (v : Word) : (s.wr off v).phCnt = s.phCnt := rfl
@[simp] theorem State.wr_rack (off : Nat) (v : Word) : (s.wr off v).rack = s.rack := rfl
@[simp] theorem State.wr_panel (off : Nat) (v : Word) : (s.wr off v).panel = s.panel := rfl
@[simp] theorem State.wr_blz (off : Nat) (v : Word) : (s.wr off v).blz = s.blz := rfl
@[simp] theorem State.wr_svc (off : Nat) (v : Word) : (s.wr off v).svc = s.svc := rfl
@[simp] theorem State.wr_life (off : Nat) (v : Word) : (s.wr off v).life = s.life := rfl
@[simp] theorem State.wr_uarts (off : Nat) (v : Word) : (s.wr off v).uarts = s.uarts := rfl
@[simp] theorem State.wr_pinLevel (off : Nat) (v : Word) : (s.wr off v).pinLevel = s.pinLevel := rfl
@[simp] theorem State.wr_gpioHeld (off : Nat) (v : Word) : (s.wr off v).gpioHeld = s.gpioHeld := rfl
@[simp] theorem State.wr_gpioTold (off : Nat) (v : Word) : (s.wr off v).gpioTold = s.gpioTold := rfl

/-! ### State.emit -/

@[simp] theorem State.emit_pending (m : Msg) : (s.emit m).pending = s.pending := rfl
@[simp] theorem State.emit_now (m : Msg) : (s.emit m).now = s.now := rfl
@[simp] theorem State.emit_draws (m : Msg) : (s.emit m).draws = s.draws := rfl
@[simp] theorem State.emit_regs (m : Msg) : (s.emit m).regs = s.regs := rfl
@[simp] theorem State.emit_app (m : Msg) : (s.emit m).app = s.app := rfl
@[simp] theorem State.emit_votes (m : Msg) : (s.emit m).votes = s.votes := rfl
@[simp] theorem State.emit_voteRuns (m : Msg) : (s.emit m).voteRuns = s.voteRuns := rfl
@[simp] theorem State.emit_voteFirst (m : Msg) : (s.emit m).voteFirst = s.voteFirst := rfl
@[simp] theorem State.emit_voteRepairs (m : Msg) : (s.emit m).voteRepairs = s.voteRepairs := rfl
@[simp] theorem State.emit_latches (m : Msg) : (s.emit m).latches = s.latches := rfl
@[simp] theorem State.emit_tally (m : Msg) : (s.emit m).tally = s.tally := rfl
@[simp] theorem State.emit_arrivals (m : Msg) : (s.emit m).arrivals = s.arrivals := rfl
@[simp] theorem State.emit_limits (m : Msg) : (s.emit m).limits = s.limits := rfl
@[simp] theorem State.emit_tclk (m : Msg) : (s.emit m).tclk = s.tclk := rfl
@[simp] theorem State.emit_nclk (m : Msg) : (s.emit m).nclk = s.nclk := rfl
@[simp] theorem State.emit_tiles (m : Msg) : (s.emit m).tiles = s.tiles := rfl
@[simp] theorem State.emit_rangers (m : Msg) : (s.emit m).rangers = s.rangers := rfl
@[simp] theorem State.emit_notices (m : Msg) : (s.emit m).notices = s.notices := rfl
@[simp] theorem State.emit_barriers (m : Msg) : (s.emit m).barriers = s.barriers := rfl
@[simp] theorem State.emit_spad (m : Msg) : (s.emit m).spad = s.spad := rfl
@[simp] theorem State.emit_spMark (m : Msg) : (s.emit m).spMark = s.spMark := rfl
@[simp] theorem State.emit_spTag (m : Msg) : (s.emit m).spTag = s.spTag := rfl
@[simp] theorem State.emit_mrow (m : Msg) : (s.emit m).mrow = s.mrow := rfl
@[simp] theorem State.emit_mflip (m : Msg) : (s.emit m).mflip = s.mflip := rfl
@[simp] theorem State.emit_rgRec (m : Msg) : (s.emit m).rgRec = s.rgRec := rfl
@[simp] theorem State.emit_health (m : Msg) : (s.emit m).health = s.health := rfl
@[simp] theorem State.emit_macCnt (m : Msg) : (s.emit m).macCnt = s.macCnt := rfl
@[simp] theorem State.emit_restoreQ (m : Msg) : (s.emit m).restoreQ = s.restoreQ := rfl
@[simp] theorem State.emit_restore (m : Msg) : (s.emit m).restore = s.restore := rfl
@[simp] theorem State.emit_errLog (m : Msg) : (s.emit m).errLog = s.errLog := rfl
@[simp] theorem State.emit_errLostSec (m : Msg) : (s.emit m).errLostSec = s.errLostSec := rfl
@[simp] theorem State.emit_repairs (m : Msg) : (s.emit m).repairs = s.repairs := rfl
@[simp] theorem State.emit_charges (m : Msg) : (s.emit m).charges = s.charges := rfl
@[simp] theorem State.emit_opsecAt (m : Msg) : (s.emit m).opsecAt = s.opsecAt := rfl
@[simp] theorem State.emit_hbm (m : Msg) : (s.emit m).hbm = s.hbm := rfl
@[simp] theorem State.emit_hbmMark (m : Msg) : (s.emit m).hbmMark = s.hbmMark := rfl
@[simp] theorem State.emit_hbmCtl (m : Msg) : (s.emit m).hbmCtl = s.hbmCtl := rfl
@[simp] theorem State.emit_sram (m : Msg) : (s.emit m).sram = s.sram := rfl
@[simp] theorem State.emit_flash (m : Msg) : (s.emit m).flash = s.flash := rfl
@[simp] theorem State.emit_txns (m : Msg) : (s.emit m).txns = s.txns := rfl
@[simp] theorem State.emit_txnOrd (m : Msg) : (s.emit m).txnOrd = s.txnOrd := rfl
@[simp] theorem State.emit_links (m : Msg) : (s.emit m).links = s.links := rfl
@[simp] theorem State.emit_winWait (m : Msg) : (s.emit m).winWait = s.winWait := rfl
@[simp] theorem State.emit_heldReqs (m : Msg) : (s.emit m).heldReqs = s.heldReqs := rfl
@[simp] theorem State.emit_closeNotes (m : Msg) : (s.emit m).closeNotes = s.closeNotes := rfl
@[simp] theorem State.emit_streams (m : Msg) : (s.emit m).streams = s.streams := rfl
@[simp] theorem State.emit_time (m : Msg) : (s.emit m).time = s.time := rfl
@[simp] theorem State.emit_odo (m : Msg) : (s.emit m).odo = s.odo := rfl
@[simp] theorem State.emit_odoAb (m : Msg) : (s.emit m).odoAb = s.odoAb := rfl
@[simp] theorem State.emit_ingest (m : Msg) : (s.emit m).ingest = s.ingest := rfl
@[simp] theorem State.emit_blaze (m : Msg) : (s.emit m).blaze = s.blaze := rfl
@[simp] theorem State.emit_faultCodes (m : Msg) : (s.emit m).faultCodes = s.faultCodes := rfl
@[simp] theorem State.emit_doms (m : Msg) : (s.emit m).doms = s.doms := rfl
@[simp] theorem State.emit_quads (m : Msg) : (s.emit m).quads = s.quads := rfl
@[simp] theorem State.emit_cap (m : Msg) : (s.emit m).cap = s.cap := rfl
@[simp] theorem State.emit_phCnt (m : Msg) : (s.emit m).phCnt = s.phCnt := rfl
@[simp] theorem State.emit_rack (m : Msg) : (s.emit m).rack = s.rack := rfl
@[simp] theorem State.emit_panel (m : Msg) : (s.emit m).panel = s.panel := rfl
@[simp] theorem State.emit_blz (m : Msg) : (s.emit m).blz = s.blz := rfl
@[simp] theorem State.emit_svc (m : Msg) : (s.emit m).svc = s.svc := rfl
@[simp] theorem State.emit_life (m : Msg) : (s.emit m).life = s.life := rfl
@[simp] theorem State.emit_uarts (m : Msg) : (s.emit m).uarts = s.uarts := rfl
@[simp] theorem State.emit_pinLevel (m : Msg) : (s.emit m).pinLevel = s.pinLevel := rfl
@[simp] theorem State.emit_gpioHeld (m : Msg) : (s.emit m).gpioHeld = s.gpioHeld := rfl
@[simp] theorem State.emit_gpioTold (m : Msg) : (s.emit m).gpioTold = s.gpioTold := rfl

/-! ### State.setTile -/

@[simp] theorem State.setTile_pending (n : Nat) (t : Tile) : (s.setTile n t).pending = s.pending := rfl
@[simp] theorem State.setTile_now (n : Nat) (t : Tile) : (s.setTile n t).now = s.now := rfl
@[simp] theorem State.setTile_draws (n : Nat) (t : Tile) : (s.setTile n t).draws = s.draws := rfl
@[simp] theorem State.setTile_out (n : Nat) (t : Tile) : (s.setTile n t).out = s.out := rfl
@[simp] theorem State.setTile_regs (n : Nat) (t : Tile) : (s.setTile n t).regs = s.regs := rfl
@[simp] theorem State.setTile_app (n : Nat) (t : Tile) : (s.setTile n t).app = s.app := rfl
@[simp] theorem State.setTile_votes (n : Nat) (t : Tile) : (s.setTile n t).votes = s.votes := rfl
@[simp] theorem State.setTile_voteRuns (n : Nat) (t : Tile) : (s.setTile n t).voteRuns = s.voteRuns := rfl
@[simp] theorem State.setTile_voteFirst (n : Nat) (t : Tile) : (s.setTile n t).voteFirst = s.voteFirst := rfl
@[simp] theorem State.setTile_voteRepairs (n : Nat) (t : Tile) : (s.setTile n t).voteRepairs = s.voteRepairs := rfl
@[simp] theorem State.setTile_latches (n : Nat) (t : Tile) : (s.setTile n t).latches = s.latches := rfl
@[simp] theorem State.setTile_tally (n : Nat) (t : Tile) : (s.setTile n t).tally = s.tally := rfl
@[simp] theorem State.setTile_arrivals (n : Nat) (t : Tile) : (s.setTile n t).arrivals = s.arrivals := rfl
@[simp] theorem State.setTile_limits (n : Nat) (t : Tile) : (s.setTile n t).limits = s.limits := rfl
@[simp] theorem State.setTile_tclk (n : Nat) (t : Tile) : (s.setTile n t).tclk = s.tclk := rfl
@[simp] theorem State.setTile_nclk (n : Nat) (t : Tile) : (s.setTile n t).nclk = s.nclk := rfl
@[simp] theorem State.setTile_rangers (n : Nat) (t : Tile) : (s.setTile n t).rangers = s.rangers := rfl
@[simp] theorem State.setTile_notices (n : Nat) (t : Tile) : (s.setTile n t).notices = s.notices := rfl
@[simp] theorem State.setTile_barriers (n : Nat) (t : Tile) : (s.setTile n t).barriers = s.barriers := rfl
@[simp] theorem State.setTile_spad (n : Nat) (t : Tile) : (s.setTile n t).spad = s.spad := rfl
@[simp] theorem State.setTile_spMark (n : Nat) (t : Tile) : (s.setTile n t).spMark = s.spMark := rfl
@[simp] theorem State.setTile_spTag (n : Nat) (t : Tile) : (s.setTile n t).spTag = s.spTag := rfl
@[simp] theorem State.setTile_mrow (n : Nat) (t : Tile) : (s.setTile n t).mrow = s.mrow := rfl
@[simp] theorem State.setTile_mflip (n : Nat) (t : Tile) : (s.setTile n t).mflip = s.mflip := rfl
@[simp] theorem State.setTile_rgRec (n : Nat) (t : Tile) : (s.setTile n t).rgRec = s.rgRec := rfl
@[simp] theorem State.setTile_health (n : Nat) (t : Tile) : (s.setTile n t).health = s.health := rfl
@[simp] theorem State.setTile_macCnt (n : Nat) (t : Tile) : (s.setTile n t).macCnt = s.macCnt := rfl
@[simp] theorem State.setTile_restoreQ (n : Nat) (t : Tile) : (s.setTile n t).restoreQ = s.restoreQ := rfl
@[simp] theorem State.setTile_restore (n : Nat) (t : Tile) : (s.setTile n t).restore = s.restore := rfl
@[simp] theorem State.setTile_errLog (n : Nat) (t : Tile) : (s.setTile n t).errLog = s.errLog := rfl
@[simp] theorem State.setTile_errLostSec (n : Nat) (t : Tile) : (s.setTile n t).errLostSec = s.errLostSec := rfl
@[simp] theorem State.setTile_repairs (n : Nat) (t : Tile) : (s.setTile n t).repairs = s.repairs := rfl
@[simp] theorem State.setTile_charges (n : Nat) (t : Tile) : (s.setTile n t).charges = s.charges := rfl
@[simp] theorem State.setTile_opsecAt (n : Nat) (t : Tile) : (s.setTile n t).opsecAt = s.opsecAt := rfl
@[simp] theorem State.setTile_hbm (n : Nat) (t : Tile) : (s.setTile n t).hbm = s.hbm := rfl
@[simp] theorem State.setTile_hbmMark (n : Nat) (t : Tile) : (s.setTile n t).hbmMark = s.hbmMark := rfl
@[simp] theorem State.setTile_hbmCtl (n : Nat) (t : Tile) : (s.setTile n t).hbmCtl = s.hbmCtl := rfl
@[simp] theorem State.setTile_sram (n : Nat) (t : Tile) : (s.setTile n t).sram = s.sram := rfl
@[simp] theorem State.setTile_flash (n : Nat) (t : Tile) : (s.setTile n t).flash = s.flash := rfl
@[simp] theorem State.setTile_txns (n : Nat) (t : Tile) : (s.setTile n t).txns = s.txns := rfl
@[simp] theorem State.setTile_txnOrd (n : Nat) (t : Tile) : (s.setTile n t).txnOrd = s.txnOrd := rfl
@[simp] theorem State.setTile_links (n : Nat) (t : Tile) : (s.setTile n t).links = s.links := rfl
@[simp] theorem State.setTile_winWait (n : Nat) (t : Tile) : (s.setTile n t).winWait = s.winWait := rfl
@[simp] theorem State.setTile_heldReqs (n : Nat) (t : Tile) : (s.setTile n t).heldReqs = s.heldReqs := rfl
@[simp] theorem State.setTile_closeNotes (n : Nat) (t : Tile) : (s.setTile n t).closeNotes = s.closeNotes := rfl
@[simp] theorem State.setTile_streams (n : Nat) (t : Tile) : (s.setTile n t).streams = s.streams := rfl
@[simp] theorem State.setTile_time (n : Nat) (t : Tile) : (s.setTile n t).time = s.time := rfl
@[simp] theorem State.setTile_odo (n : Nat) (t : Tile) : (s.setTile n t).odo = s.odo := rfl
@[simp] theorem State.setTile_odoAb (n : Nat) (t : Tile) : (s.setTile n t).odoAb = s.odoAb := rfl
@[simp] theorem State.setTile_ingest (n : Nat) (t : Tile) : (s.setTile n t).ingest = s.ingest := rfl
@[simp] theorem State.setTile_blaze (n : Nat) (t : Tile) : (s.setTile n t).blaze = s.blaze := rfl
@[simp] theorem State.setTile_faultCodes (n : Nat) (t : Tile) : (s.setTile n t).faultCodes = s.faultCodes := rfl
@[simp] theorem State.setTile_doms (n : Nat) (t : Tile) : (s.setTile n t).doms = s.doms := rfl
@[simp] theorem State.setTile_quads (n : Nat) (t : Tile) : (s.setTile n t).quads = s.quads := rfl
@[simp] theorem State.setTile_cap (n : Nat) (t : Tile) : (s.setTile n t).cap = s.cap := rfl
@[simp] theorem State.setTile_phCnt (n : Nat) (t : Tile) : (s.setTile n t).phCnt = s.phCnt := rfl
@[simp] theorem State.setTile_rack (n : Nat) (t : Tile) : (s.setTile n t).rack = s.rack := rfl
@[simp] theorem State.setTile_panel (n : Nat) (t : Tile) : (s.setTile n t).panel = s.panel := rfl
@[simp] theorem State.setTile_blz (n : Nat) (t : Tile) : (s.setTile n t).blz = s.blz := rfl
@[simp] theorem State.setTile_svc (n : Nat) (t : Tile) : (s.setTile n t).svc = s.svc := rfl
@[simp] theorem State.setTile_life (n : Nat) (t : Tile) : (s.setTile n t).life = s.life := rfl
@[simp] theorem State.setTile_uarts (n : Nat) (t : Tile) : (s.setTile n t).uarts = s.uarts := rfl
@[simp] theorem State.setTile_pinLevel (n : Nat) (t : Tile) : (s.setTile n t).pinLevel = s.pinLevel := rfl
@[simp] theorem State.setTile_gpioHeld (n : Nat) (t : Tile) : (s.setTile n t).gpioHeld = s.gpioHeld := rfl
@[simp] theorem State.setTile_gpioTold (n : Nat) (t : Tile) : (s.setTile n t).gpioTold = s.gpioTold := rfl

/-! ### State.modTile -/

@[simp] theorem State.modTile_pending (n : Nat) (f : Tile → Tile) : (s.modTile n f).pending = s.pending := rfl
@[simp] theorem State.modTile_now (n : Nat) (f : Tile → Tile) : (s.modTile n f).now = s.now := rfl
@[simp] theorem State.modTile_draws (n : Nat) (f : Tile → Tile) : (s.modTile n f).draws = s.draws := rfl
@[simp] theorem State.modTile_out (n : Nat) (f : Tile → Tile) : (s.modTile n f).out = s.out := rfl
@[simp] theorem State.modTile_regs (n : Nat) (f : Tile → Tile) : (s.modTile n f).regs = s.regs := rfl
@[simp] theorem State.modTile_app (n : Nat) (f : Tile → Tile) : (s.modTile n f).app = s.app := rfl
@[simp] theorem State.modTile_votes (n : Nat) (f : Tile → Tile) : (s.modTile n f).votes = s.votes := rfl
@[simp] theorem State.modTile_voteRuns (n : Nat) (f : Tile → Tile) : (s.modTile n f).voteRuns = s.voteRuns := rfl
@[simp] theorem State.modTile_voteFirst (n : Nat) (f : Tile → Tile) : (s.modTile n f).voteFirst = s.voteFirst := rfl
@[simp] theorem State.modTile_voteRepairs (n : Nat) (f : Tile → Tile) : (s.modTile n f).voteRepairs = s.voteRepairs := rfl
@[simp] theorem State.modTile_latches (n : Nat) (f : Tile → Tile) : (s.modTile n f).latches = s.latches := rfl
@[simp] theorem State.modTile_tally (n : Nat) (f : Tile → Tile) : (s.modTile n f).tally = s.tally := rfl
@[simp] theorem State.modTile_arrivals (n : Nat) (f : Tile → Tile) : (s.modTile n f).arrivals = s.arrivals := rfl
@[simp] theorem State.modTile_limits (n : Nat) (f : Tile → Tile) : (s.modTile n f).limits = s.limits := rfl
@[simp] theorem State.modTile_tclk (n : Nat) (f : Tile → Tile) : (s.modTile n f).tclk = s.tclk := rfl
@[simp] theorem State.modTile_nclk (n : Nat) (f : Tile → Tile) : (s.modTile n f).nclk = s.nclk := rfl
@[simp] theorem State.modTile_rangers (n : Nat) (f : Tile → Tile) : (s.modTile n f).rangers = s.rangers := rfl
@[simp] theorem State.modTile_notices (n : Nat) (f : Tile → Tile) : (s.modTile n f).notices = s.notices := rfl
@[simp] theorem State.modTile_barriers (n : Nat) (f : Tile → Tile) : (s.modTile n f).barriers = s.barriers := rfl
@[simp] theorem State.modTile_spad (n : Nat) (f : Tile → Tile) : (s.modTile n f).spad = s.spad := rfl
@[simp] theorem State.modTile_spMark (n : Nat) (f : Tile → Tile) : (s.modTile n f).spMark = s.spMark := rfl
@[simp] theorem State.modTile_spTag (n : Nat) (f : Tile → Tile) : (s.modTile n f).spTag = s.spTag := rfl
@[simp] theorem State.modTile_mrow (n : Nat) (f : Tile → Tile) : (s.modTile n f).mrow = s.mrow := rfl
@[simp] theorem State.modTile_mflip (n : Nat) (f : Tile → Tile) : (s.modTile n f).mflip = s.mflip := rfl
@[simp] theorem State.modTile_rgRec (n : Nat) (f : Tile → Tile) : (s.modTile n f).rgRec = s.rgRec := rfl
@[simp] theorem State.modTile_health (n : Nat) (f : Tile → Tile) : (s.modTile n f).health = s.health := rfl
@[simp] theorem State.modTile_macCnt (n : Nat) (f : Tile → Tile) : (s.modTile n f).macCnt = s.macCnt := rfl
@[simp] theorem State.modTile_restoreQ (n : Nat) (f : Tile → Tile) : (s.modTile n f).restoreQ = s.restoreQ := rfl
@[simp] theorem State.modTile_restore (n : Nat) (f : Tile → Tile) : (s.modTile n f).restore = s.restore := rfl
@[simp] theorem State.modTile_errLog (n : Nat) (f : Tile → Tile) : (s.modTile n f).errLog = s.errLog := rfl
@[simp] theorem State.modTile_errLostSec (n : Nat) (f : Tile → Tile) : (s.modTile n f).errLostSec = s.errLostSec := rfl
@[simp] theorem State.modTile_repairs (n : Nat) (f : Tile → Tile) : (s.modTile n f).repairs = s.repairs := rfl
@[simp] theorem State.modTile_charges (n : Nat) (f : Tile → Tile) : (s.modTile n f).charges = s.charges := rfl
@[simp] theorem State.modTile_opsecAt (n : Nat) (f : Tile → Tile) : (s.modTile n f).opsecAt = s.opsecAt := rfl
@[simp] theorem State.modTile_hbm (n : Nat) (f : Tile → Tile) : (s.modTile n f).hbm = s.hbm := rfl
@[simp] theorem State.modTile_hbmMark (n : Nat) (f : Tile → Tile) : (s.modTile n f).hbmMark = s.hbmMark := rfl
@[simp] theorem State.modTile_hbmCtl (n : Nat) (f : Tile → Tile) : (s.modTile n f).hbmCtl = s.hbmCtl := rfl
@[simp] theorem State.modTile_sram (n : Nat) (f : Tile → Tile) : (s.modTile n f).sram = s.sram := rfl
@[simp] theorem State.modTile_flash (n : Nat) (f : Tile → Tile) : (s.modTile n f).flash = s.flash := rfl
@[simp] theorem State.modTile_txns (n : Nat) (f : Tile → Tile) : (s.modTile n f).txns = s.txns := rfl
@[simp] theorem State.modTile_txnOrd (n : Nat) (f : Tile → Tile) : (s.modTile n f).txnOrd = s.txnOrd := rfl
@[simp] theorem State.modTile_links (n : Nat) (f : Tile → Tile) : (s.modTile n f).links = s.links := rfl
@[simp] theorem State.modTile_winWait (n : Nat) (f : Tile → Tile) : (s.modTile n f).winWait = s.winWait := rfl
@[simp] theorem State.modTile_heldReqs (n : Nat) (f : Tile → Tile) : (s.modTile n f).heldReqs = s.heldReqs := rfl
@[simp] theorem State.modTile_closeNotes (n : Nat) (f : Tile → Tile) : (s.modTile n f).closeNotes = s.closeNotes := rfl
@[simp] theorem State.modTile_streams (n : Nat) (f : Tile → Tile) : (s.modTile n f).streams = s.streams := rfl
@[simp] theorem State.modTile_time (n : Nat) (f : Tile → Tile) : (s.modTile n f).time = s.time := rfl
@[simp] theorem State.modTile_odo (n : Nat) (f : Tile → Tile) : (s.modTile n f).odo = s.odo := rfl
@[simp] theorem State.modTile_odoAb (n : Nat) (f : Tile → Tile) : (s.modTile n f).odoAb = s.odoAb := rfl
@[simp] theorem State.modTile_ingest (n : Nat) (f : Tile → Tile) : (s.modTile n f).ingest = s.ingest := rfl
@[simp] theorem State.modTile_blaze (n : Nat) (f : Tile → Tile) : (s.modTile n f).blaze = s.blaze := rfl
@[simp] theorem State.modTile_faultCodes (n : Nat) (f : Tile → Tile) : (s.modTile n f).faultCodes = s.faultCodes := rfl
@[simp] theorem State.modTile_doms (n : Nat) (f : Tile → Tile) : (s.modTile n f).doms = s.doms := rfl
@[simp] theorem State.modTile_quads (n : Nat) (f : Tile → Tile) : (s.modTile n f).quads = s.quads := rfl
@[simp] theorem State.modTile_cap (n : Nat) (f : Tile → Tile) : (s.modTile n f).cap = s.cap := rfl
@[simp] theorem State.modTile_phCnt (n : Nat) (f : Tile → Tile) : (s.modTile n f).phCnt = s.phCnt := rfl
@[simp] theorem State.modTile_rack (n : Nat) (f : Tile → Tile) : (s.modTile n f).rack = s.rack := rfl
@[simp] theorem State.modTile_panel (n : Nat) (f : Tile → Tile) : (s.modTile n f).panel = s.panel := rfl
@[simp] theorem State.modTile_blz (n : Nat) (f : Tile → Tile) : (s.modTile n f).blz = s.blz := rfl
@[simp] theorem State.modTile_svc (n : Nat) (f : Tile → Tile) : (s.modTile n f).svc = s.svc := rfl
@[simp] theorem State.modTile_life (n : Nat) (f : Tile → Tile) : (s.modTile n f).life = s.life := rfl
@[simp] theorem State.modTile_uarts (n : Nat) (f : Tile → Tile) : (s.modTile n f).uarts = s.uarts := rfl
@[simp] theorem State.modTile_pinLevel (n : Nat) (f : Tile → Tile) : (s.modTile n f).pinLevel = s.pinLevel := rfl
@[simp] theorem State.modTile_gpioHeld (n : Nat) (f : Tile → Tile) : (s.modTile n f).gpioHeld = s.gpioHeld := rfl
@[simp] theorem State.modTile_gpioTold (n : Nat) (f : Tile → Tile) : (s.modTile n f).gpioTold = s.gpioTold := rfl

/-! ### State.setTxn -/

@[simp] theorem State.setTxn_pending (k : Nat) (t : Txn) : (s.setTxn k t).pending = s.pending := rfl
@[simp] theorem State.setTxn_now (k : Nat) (t : Txn) : (s.setTxn k t).now = s.now := rfl
@[simp] theorem State.setTxn_draws (k : Nat) (t : Txn) : (s.setTxn k t).draws = s.draws := rfl
@[simp] theorem State.setTxn_out (k : Nat) (t : Txn) : (s.setTxn k t).out = s.out := rfl
@[simp] theorem State.setTxn_regs (k : Nat) (t : Txn) : (s.setTxn k t).regs = s.regs := rfl
@[simp] theorem State.setTxn_app (k : Nat) (t : Txn) : (s.setTxn k t).app = s.app := rfl
@[simp] theorem State.setTxn_votes (k : Nat) (t : Txn) : (s.setTxn k t).votes = s.votes := rfl
@[simp] theorem State.setTxn_voteRuns (k : Nat) (t : Txn) : (s.setTxn k t).voteRuns = s.voteRuns := rfl
@[simp] theorem State.setTxn_voteFirst (k : Nat) (t : Txn) : (s.setTxn k t).voteFirst = s.voteFirst := rfl
@[simp] theorem State.setTxn_voteRepairs (k : Nat) (t : Txn) : (s.setTxn k t).voteRepairs = s.voteRepairs := rfl
@[simp] theorem State.setTxn_latches (k : Nat) (t : Txn) : (s.setTxn k t).latches = s.latches := rfl
@[simp] theorem State.setTxn_tally (k : Nat) (t : Txn) : (s.setTxn k t).tally = s.tally := rfl
@[simp] theorem State.setTxn_arrivals (k : Nat) (t : Txn) : (s.setTxn k t).arrivals = s.arrivals := rfl
@[simp] theorem State.setTxn_limits (k : Nat) (t : Txn) : (s.setTxn k t).limits = s.limits := rfl
@[simp] theorem State.setTxn_tclk (k : Nat) (t : Txn) : (s.setTxn k t).tclk = s.tclk := rfl
@[simp] theorem State.setTxn_nclk (k : Nat) (t : Txn) : (s.setTxn k t).nclk = s.nclk := rfl
@[simp] theorem State.setTxn_tiles (k : Nat) (t : Txn) : (s.setTxn k t).tiles = s.tiles := rfl
@[simp] theorem State.setTxn_rangers (k : Nat) (t : Txn) : (s.setTxn k t).rangers = s.rangers := rfl
@[simp] theorem State.setTxn_notices (k : Nat) (t : Txn) : (s.setTxn k t).notices = s.notices := rfl
@[simp] theorem State.setTxn_barriers (k : Nat) (t : Txn) : (s.setTxn k t).barriers = s.barriers := rfl
@[simp] theorem State.setTxn_spad (k : Nat) (t : Txn) : (s.setTxn k t).spad = s.spad := rfl
@[simp] theorem State.setTxn_spMark (k : Nat) (t : Txn) : (s.setTxn k t).spMark = s.spMark := rfl
@[simp] theorem State.setTxn_spTag (k : Nat) (t : Txn) : (s.setTxn k t).spTag = s.spTag := rfl
@[simp] theorem State.setTxn_mrow (k : Nat) (t : Txn) : (s.setTxn k t).mrow = s.mrow := rfl
@[simp] theorem State.setTxn_mflip (k : Nat) (t : Txn) : (s.setTxn k t).mflip = s.mflip := rfl
@[simp] theorem State.setTxn_rgRec (k : Nat) (t : Txn) : (s.setTxn k t).rgRec = s.rgRec := rfl
@[simp] theorem State.setTxn_health (k : Nat) (t : Txn) : (s.setTxn k t).health = s.health := rfl
@[simp] theorem State.setTxn_macCnt (k : Nat) (t : Txn) : (s.setTxn k t).macCnt = s.macCnt := rfl
@[simp] theorem State.setTxn_restoreQ (k : Nat) (t : Txn) : (s.setTxn k t).restoreQ = s.restoreQ := rfl
@[simp] theorem State.setTxn_restore (k : Nat) (t : Txn) : (s.setTxn k t).restore = s.restore := rfl
@[simp] theorem State.setTxn_errLog (k : Nat) (t : Txn) : (s.setTxn k t).errLog = s.errLog := rfl
@[simp] theorem State.setTxn_errLostSec (k : Nat) (t : Txn) : (s.setTxn k t).errLostSec = s.errLostSec := rfl
@[simp] theorem State.setTxn_repairs (k : Nat) (t : Txn) : (s.setTxn k t).repairs = s.repairs := rfl
@[simp] theorem State.setTxn_charges (k : Nat) (t : Txn) : (s.setTxn k t).charges = s.charges := rfl
@[simp] theorem State.setTxn_opsecAt (k : Nat) (t : Txn) : (s.setTxn k t).opsecAt = s.opsecAt := rfl
@[simp] theorem State.setTxn_hbm (k : Nat) (t : Txn) : (s.setTxn k t).hbm = s.hbm := rfl
@[simp] theorem State.setTxn_hbmMark (k : Nat) (t : Txn) : (s.setTxn k t).hbmMark = s.hbmMark := rfl
@[simp] theorem State.setTxn_hbmCtl (k : Nat) (t : Txn) : (s.setTxn k t).hbmCtl = s.hbmCtl := rfl
@[simp] theorem State.setTxn_sram (k : Nat) (t : Txn) : (s.setTxn k t).sram = s.sram := rfl
@[simp] theorem State.setTxn_flash (k : Nat) (t : Txn) : (s.setTxn k t).flash = s.flash := rfl
@[simp] theorem State.setTxn_txnOrd (k : Nat) (t : Txn) : (s.setTxn k t).txnOrd = s.txnOrd := rfl
@[simp] theorem State.setTxn_links (k : Nat) (t : Txn) : (s.setTxn k t).links = s.links := rfl
@[simp] theorem State.setTxn_winWait (k : Nat) (t : Txn) : (s.setTxn k t).winWait = s.winWait := rfl
@[simp] theorem State.setTxn_heldReqs (k : Nat) (t : Txn) : (s.setTxn k t).heldReqs = s.heldReqs := rfl
@[simp] theorem State.setTxn_closeNotes (k : Nat) (t : Txn) : (s.setTxn k t).closeNotes = s.closeNotes := rfl
@[simp] theorem State.setTxn_streams (k : Nat) (t : Txn) : (s.setTxn k t).streams = s.streams := rfl
@[simp] theorem State.setTxn_time (k : Nat) (t : Txn) : (s.setTxn k t).time = s.time := rfl
@[simp] theorem State.setTxn_odo (k : Nat) (t : Txn) : (s.setTxn k t).odo = s.odo := rfl
@[simp] theorem State.setTxn_odoAb (k : Nat) (t : Txn) : (s.setTxn k t).odoAb = s.odoAb := rfl
@[simp] theorem State.setTxn_ingest (k : Nat) (t : Txn) : (s.setTxn k t).ingest = s.ingest := rfl
@[simp] theorem State.setTxn_blaze (k : Nat) (t : Txn) : (s.setTxn k t).blaze = s.blaze := rfl
@[simp] theorem State.setTxn_faultCodes (k : Nat) (t : Txn) : (s.setTxn k t).faultCodes = s.faultCodes := rfl
@[simp] theorem State.setTxn_doms (k : Nat) (t : Txn) : (s.setTxn k t).doms = s.doms := rfl
@[simp] theorem State.setTxn_quads (k : Nat) (t : Txn) : (s.setTxn k t).quads = s.quads := rfl
@[simp] theorem State.setTxn_cap (k : Nat) (t : Txn) : (s.setTxn k t).cap = s.cap := rfl
@[simp] theorem State.setTxn_phCnt (k : Nat) (t : Txn) : (s.setTxn k t).phCnt = s.phCnt := rfl
@[simp] theorem State.setTxn_rack (k : Nat) (t : Txn) : (s.setTxn k t).rack = s.rack := rfl
@[simp] theorem State.setTxn_panel (k : Nat) (t : Txn) : (s.setTxn k t).panel = s.panel := rfl
@[simp] theorem State.setTxn_blz (k : Nat) (t : Txn) : (s.setTxn k t).blz = s.blz := rfl
@[simp] theorem State.setTxn_svc (k : Nat) (t : Txn) : (s.setTxn k t).svc = s.svc := rfl
@[simp] theorem State.setTxn_life (k : Nat) (t : Txn) : (s.setTxn k t).life = s.life := rfl
@[simp] theorem State.setTxn_uarts (k : Nat) (t : Txn) : (s.setTxn k t).uarts = s.uarts := rfl
@[simp] theorem State.setTxn_pinLevel (k : Nat) (t : Txn) : (s.setTxn k t).pinLevel = s.pinLevel := rfl
@[simp] theorem State.setTxn_gpioHeld (k : Nat) (t : Txn) : (s.setTxn k t).gpioHeld = s.gpioHeld := rfl
@[simp] theorem State.setTxn_gpioTold (k : Nat) (t : Txn) : (s.setTxn k t).gpioTold = s.gpioTold := rfl

/-! ### State.setUart -/

@[simp] theorem State.setUart_pending (k : Nat) (u : Uart) : (s.setUart k u).pending = s.pending := rfl
@[simp] theorem State.setUart_now (k : Nat) (u : Uart) : (s.setUart k u).now = s.now := rfl
@[simp] theorem State.setUart_draws (k : Nat) (u : Uart) : (s.setUart k u).draws = s.draws := rfl
@[simp] theorem State.setUart_out (k : Nat) (u : Uart) : (s.setUart k u).out = s.out := rfl
@[simp] theorem State.setUart_regs (k : Nat) (u : Uart) : (s.setUart k u).regs = s.regs := rfl
@[simp] theorem State.setUart_app (k : Nat) (u : Uart) : (s.setUart k u).app = s.app := rfl
@[simp] theorem State.setUart_votes (k : Nat) (u : Uart) : (s.setUart k u).votes = s.votes := rfl
@[simp] theorem State.setUart_voteRuns (k : Nat) (u : Uart) : (s.setUart k u).voteRuns = s.voteRuns := rfl
@[simp] theorem State.setUart_voteFirst (k : Nat) (u : Uart) : (s.setUart k u).voteFirst = s.voteFirst := rfl
@[simp] theorem State.setUart_voteRepairs (k : Nat) (u : Uart) : (s.setUart k u).voteRepairs = s.voteRepairs := rfl
@[simp] theorem State.setUart_latches (k : Nat) (u : Uart) : (s.setUart k u).latches = s.latches := rfl
@[simp] theorem State.setUart_tally (k : Nat) (u : Uart) : (s.setUart k u).tally = s.tally := rfl
@[simp] theorem State.setUart_arrivals (k : Nat) (u : Uart) : (s.setUart k u).arrivals = s.arrivals := rfl
@[simp] theorem State.setUart_limits (k : Nat) (u : Uart) : (s.setUart k u).limits = s.limits := rfl
@[simp] theorem State.setUart_tclk (k : Nat) (u : Uart) : (s.setUart k u).tclk = s.tclk := rfl
@[simp] theorem State.setUart_nclk (k : Nat) (u : Uart) : (s.setUart k u).nclk = s.nclk := rfl
@[simp] theorem State.setUart_tiles (k : Nat) (u : Uart) : (s.setUart k u).tiles = s.tiles := rfl
@[simp] theorem State.setUart_rangers (k : Nat) (u : Uart) : (s.setUart k u).rangers = s.rangers := rfl
@[simp] theorem State.setUart_notices (k : Nat) (u : Uart) : (s.setUart k u).notices = s.notices := rfl
@[simp] theorem State.setUart_barriers (k : Nat) (u : Uart) : (s.setUart k u).barriers = s.barriers := rfl
@[simp] theorem State.setUart_spad (k : Nat) (u : Uart) : (s.setUart k u).spad = s.spad := rfl
@[simp] theorem State.setUart_spMark (k : Nat) (u : Uart) : (s.setUart k u).spMark = s.spMark := rfl
@[simp] theorem State.setUart_spTag (k : Nat) (u : Uart) : (s.setUart k u).spTag = s.spTag := rfl
@[simp] theorem State.setUart_mrow (k : Nat) (u : Uart) : (s.setUart k u).mrow = s.mrow := rfl
@[simp] theorem State.setUart_mflip (k : Nat) (u : Uart) : (s.setUart k u).mflip = s.mflip := rfl
@[simp] theorem State.setUart_rgRec (k : Nat) (u : Uart) : (s.setUart k u).rgRec = s.rgRec := rfl
@[simp] theorem State.setUart_health (k : Nat) (u : Uart) : (s.setUart k u).health = s.health := rfl
@[simp] theorem State.setUart_macCnt (k : Nat) (u : Uart) : (s.setUart k u).macCnt = s.macCnt := rfl
@[simp] theorem State.setUart_restoreQ (k : Nat) (u : Uart) : (s.setUart k u).restoreQ = s.restoreQ := rfl
@[simp] theorem State.setUart_restore (k : Nat) (u : Uart) : (s.setUart k u).restore = s.restore := rfl
@[simp] theorem State.setUart_errLog (k : Nat) (u : Uart) : (s.setUart k u).errLog = s.errLog := rfl
@[simp] theorem State.setUart_errLostSec (k : Nat) (u : Uart) : (s.setUart k u).errLostSec = s.errLostSec := rfl
@[simp] theorem State.setUart_repairs (k : Nat) (u : Uart) : (s.setUart k u).repairs = s.repairs := rfl
@[simp] theorem State.setUart_charges (k : Nat) (u : Uart) : (s.setUart k u).charges = s.charges := rfl
@[simp] theorem State.setUart_opsecAt (k : Nat) (u : Uart) : (s.setUart k u).opsecAt = s.opsecAt := rfl
@[simp] theorem State.setUart_hbm (k : Nat) (u : Uart) : (s.setUart k u).hbm = s.hbm := rfl
@[simp] theorem State.setUart_hbmMark (k : Nat) (u : Uart) : (s.setUart k u).hbmMark = s.hbmMark := rfl
@[simp] theorem State.setUart_hbmCtl (k : Nat) (u : Uart) : (s.setUart k u).hbmCtl = s.hbmCtl := rfl
@[simp] theorem State.setUart_sram (k : Nat) (u : Uart) : (s.setUart k u).sram = s.sram := rfl
@[simp] theorem State.setUart_flash (k : Nat) (u : Uart) : (s.setUart k u).flash = s.flash := rfl
@[simp] theorem State.setUart_txns (k : Nat) (u : Uart) : (s.setUart k u).txns = s.txns := rfl
@[simp] theorem State.setUart_txnOrd (k : Nat) (u : Uart) : (s.setUart k u).txnOrd = s.txnOrd := rfl
@[simp] theorem State.setUart_links (k : Nat) (u : Uart) : (s.setUart k u).links = s.links := rfl
@[simp] theorem State.setUart_winWait (k : Nat) (u : Uart) : (s.setUart k u).winWait = s.winWait := rfl
@[simp] theorem State.setUart_heldReqs (k : Nat) (u : Uart) : (s.setUart k u).heldReqs = s.heldReqs := rfl
@[simp] theorem State.setUart_closeNotes (k : Nat) (u : Uart) : (s.setUart k u).closeNotes = s.closeNotes := rfl
@[simp] theorem State.setUart_streams (k : Nat) (u : Uart) : (s.setUart k u).streams = s.streams := rfl
@[simp] theorem State.setUart_time (k : Nat) (u : Uart) : (s.setUart k u).time = s.time := rfl
@[simp] theorem State.setUart_odo (k : Nat) (u : Uart) : (s.setUart k u).odo = s.odo := rfl
@[simp] theorem State.setUart_odoAb (k : Nat) (u : Uart) : (s.setUart k u).odoAb = s.odoAb := rfl
@[simp] theorem State.setUart_ingest (k : Nat) (u : Uart) : (s.setUart k u).ingest = s.ingest := rfl
@[simp] theorem State.setUart_blaze (k : Nat) (u : Uart) : (s.setUart k u).blaze = s.blaze := rfl
@[simp] theorem State.setUart_faultCodes (k : Nat) (u : Uart) : (s.setUart k u).faultCodes = s.faultCodes := rfl
@[simp] theorem State.setUart_doms (k : Nat) (u : Uart) : (s.setUart k u).doms = s.doms := rfl
@[simp] theorem State.setUart_quads (k : Nat) (u : Uart) : (s.setUart k u).quads = s.quads := rfl
@[simp] theorem State.setUart_cap (k : Nat) (u : Uart) : (s.setUart k u).cap = s.cap := rfl
@[simp] theorem State.setUart_phCnt (k : Nat) (u : Uart) : (s.setUart k u).phCnt = s.phCnt := rfl
@[simp] theorem State.setUart_rack (k : Nat) (u : Uart) : (s.setUart k u).rack = s.rack := rfl
@[simp] theorem State.setUart_panel (k : Nat) (u : Uart) : (s.setUart k u).panel = s.panel := rfl
@[simp] theorem State.setUart_blz (k : Nat) (u : Uart) : (s.setUart k u).blz = s.blz := rfl
@[simp] theorem State.setUart_svc (k : Nat) (u : Uart) : (s.setUart k u).svc = s.svc := rfl
@[simp] theorem State.setUart_life (k : Nat) (u : Uart) : (s.setUart k u).life = s.life := rfl
@[simp] theorem State.setUart_pinLevel (k : Nat) (u : Uart) : (s.setUart k u).pinLevel = s.pinLevel := rfl
@[simp] theorem State.setUart_gpioHeld (k : Nat) (u : Uart) : (s.setUart k u).gpioHeld = s.gpioHeld := rfl
@[simp] theorem State.setUart_gpioTold (k : Nat) (u : Uart) : (s.setUart k u).gpioTold = s.gpioTold := rfl

/-! ### State.setLink -/

@[simp] theorem State.setLink_pending (k : Nat) (l : Link) : (s.setLink k l).pending = s.pending := rfl
@[simp] theorem State.setLink_now (k : Nat) (l : Link) : (s.setLink k l).now = s.now := rfl
@[simp] theorem State.setLink_draws (k : Nat) (l : Link) : (s.setLink k l).draws = s.draws := rfl
@[simp] theorem State.setLink_out (k : Nat) (l : Link) : (s.setLink k l).out = s.out := rfl
@[simp] theorem State.setLink_regs (k : Nat) (l : Link) : (s.setLink k l).regs = s.regs := rfl
@[simp] theorem State.setLink_app (k : Nat) (l : Link) : (s.setLink k l).app = s.app := rfl
@[simp] theorem State.setLink_votes (k : Nat) (l : Link) : (s.setLink k l).votes = s.votes := rfl
@[simp] theorem State.setLink_voteRuns (k : Nat) (l : Link) : (s.setLink k l).voteRuns = s.voteRuns := rfl
@[simp] theorem State.setLink_voteFirst (k : Nat) (l : Link) : (s.setLink k l).voteFirst = s.voteFirst := rfl
@[simp] theorem State.setLink_voteRepairs (k : Nat) (l : Link) : (s.setLink k l).voteRepairs = s.voteRepairs := rfl
@[simp] theorem State.setLink_latches (k : Nat) (l : Link) : (s.setLink k l).latches = s.latches := rfl
@[simp] theorem State.setLink_tally (k : Nat) (l : Link) : (s.setLink k l).tally = s.tally := rfl
@[simp] theorem State.setLink_arrivals (k : Nat) (l : Link) : (s.setLink k l).arrivals = s.arrivals := rfl
@[simp] theorem State.setLink_limits (k : Nat) (l : Link) : (s.setLink k l).limits = s.limits := rfl
@[simp] theorem State.setLink_tclk (k : Nat) (l : Link) : (s.setLink k l).tclk = s.tclk := rfl
@[simp] theorem State.setLink_nclk (k : Nat) (l : Link) : (s.setLink k l).nclk = s.nclk := rfl
@[simp] theorem State.setLink_tiles (k : Nat) (l : Link) : (s.setLink k l).tiles = s.tiles := rfl
@[simp] theorem State.setLink_rangers (k : Nat) (l : Link) : (s.setLink k l).rangers = s.rangers := rfl
@[simp] theorem State.setLink_notices (k : Nat) (l : Link) : (s.setLink k l).notices = s.notices := rfl
@[simp] theorem State.setLink_barriers (k : Nat) (l : Link) : (s.setLink k l).barriers = s.barriers := rfl
@[simp] theorem State.setLink_spad (k : Nat) (l : Link) : (s.setLink k l).spad = s.spad := rfl
@[simp] theorem State.setLink_spMark (k : Nat) (l : Link) : (s.setLink k l).spMark = s.spMark := rfl
@[simp] theorem State.setLink_spTag (k : Nat) (l : Link) : (s.setLink k l).spTag = s.spTag := rfl
@[simp] theorem State.setLink_mrow (k : Nat) (l : Link) : (s.setLink k l).mrow = s.mrow := rfl
@[simp] theorem State.setLink_mflip (k : Nat) (l : Link) : (s.setLink k l).mflip = s.mflip := rfl
@[simp] theorem State.setLink_rgRec (k : Nat) (l : Link) : (s.setLink k l).rgRec = s.rgRec := rfl
@[simp] theorem State.setLink_health (k : Nat) (l : Link) : (s.setLink k l).health = s.health := rfl
@[simp] theorem State.setLink_macCnt (k : Nat) (l : Link) : (s.setLink k l).macCnt = s.macCnt := rfl
@[simp] theorem State.setLink_restoreQ (k : Nat) (l : Link) : (s.setLink k l).restoreQ = s.restoreQ := rfl
@[simp] theorem State.setLink_restore (k : Nat) (l : Link) : (s.setLink k l).restore = s.restore := rfl
@[simp] theorem State.setLink_errLog (k : Nat) (l : Link) : (s.setLink k l).errLog = s.errLog := rfl
@[simp] theorem State.setLink_errLostSec (k : Nat) (l : Link) : (s.setLink k l).errLostSec = s.errLostSec := rfl
@[simp] theorem State.setLink_repairs (k : Nat) (l : Link) : (s.setLink k l).repairs = s.repairs := rfl
@[simp] theorem State.setLink_charges (k : Nat) (l : Link) : (s.setLink k l).charges = s.charges := rfl
@[simp] theorem State.setLink_opsecAt (k : Nat) (l : Link) : (s.setLink k l).opsecAt = s.opsecAt := rfl
@[simp] theorem State.setLink_hbm (k : Nat) (l : Link) : (s.setLink k l).hbm = s.hbm := rfl
@[simp] theorem State.setLink_hbmMark (k : Nat) (l : Link) : (s.setLink k l).hbmMark = s.hbmMark := rfl
@[simp] theorem State.setLink_hbmCtl (k : Nat) (l : Link) : (s.setLink k l).hbmCtl = s.hbmCtl := rfl
@[simp] theorem State.setLink_sram (k : Nat) (l : Link) : (s.setLink k l).sram = s.sram := rfl
@[simp] theorem State.setLink_flash (k : Nat) (l : Link) : (s.setLink k l).flash = s.flash := rfl
@[simp] theorem State.setLink_txns (k : Nat) (l : Link) : (s.setLink k l).txns = s.txns := rfl
@[simp] theorem State.setLink_txnOrd (k : Nat) (l : Link) : (s.setLink k l).txnOrd = s.txnOrd := rfl
@[simp] theorem State.setLink_winWait (k : Nat) (l : Link) : (s.setLink k l).winWait = s.winWait := rfl
@[simp] theorem State.setLink_heldReqs (k : Nat) (l : Link) : (s.setLink k l).heldReqs = s.heldReqs := rfl
@[simp] theorem State.setLink_closeNotes (k : Nat) (l : Link) : (s.setLink k l).closeNotes = s.closeNotes := rfl
@[simp] theorem State.setLink_streams (k : Nat) (l : Link) : (s.setLink k l).streams = s.streams := rfl
@[simp] theorem State.setLink_time (k : Nat) (l : Link) : (s.setLink k l).time = s.time := rfl
@[simp] theorem State.setLink_odo (k : Nat) (l : Link) : (s.setLink k l).odo = s.odo := rfl
@[simp] theorem State.setLink_odoAb (k : Nat) (l : Link) : (s.setLink k l).odoAb = s.odoAb := rfl
@[simp] theorem State.setLink_ingest (k : Nat) (l : Link) : (s.setLink k l).ingest = s.ingest := rfl
@[simp] theorem State.setLink_blaze (k : Nat) (l : Link) : (s.setLink k l).blaze = s.blaze := rfl
@[simp] theorem State.setLink_faultCodes (k : Nat) (l : Link) : (s.setLink k l).faultCodes = s.faultCodes := rfl
@[simp] theorem State.setLink_doms (k : Nat) (l : Link) : (s.setLink k l).doms = s.doms := rfl
@[simp] theorem State.setLink_quads (k : Nat) (l : Link) : (s.setLink k l).quads = s.quads := rfl
@[simp] theorem State.setLink_cap (k : Nat) (l : Link) : (s.setLink k l).cap = s.cap := rfl
@[simp] theorem State.setLink_phCnt (k : Nat) (l : Link) : (s.setLink k l).phCnt = s.phCnt := rfl
@[simp] theorem State.setLink_rack (k : Nat) (l : Link) : (s.setLink k l).rack = s.rack := rfl
@[simp] theorem State.setLink_panel (k : Nat) (l : Link) : (s.setLink k l).panel = s.panel := rfl
@[simp] theorem State.setLink_blz (k : Nat) (l : Link) : (s.setLink k l).blz = s.blz := rfl
@[simp] theorem State.setLink_svc (k : Nat) (l : Link) : (s.setLink k l).svc = s.svc := rfl
@[simp] theorem State.setLink_life (k : Nat) (l : Link) : (s.setLink k l).life = s.life := rfl
@[simp] theorem State.setLink_uarts (k : Nat) (l : Link) : (s.setLink k l).uarts = s.uarts := rfl
@[simp] theorem State.setLink_pinLevel (k : Nat) (l : Link) : (s.setLink k l).pinLevel = s.pinLevel := rfl
@[simp] theorem State.setLink_gpioHeld (k : Nat) (l : Link) : (s.setLink k l).gpioHeld = s.gpioHeld := rfl
@[simp] theorem State.setLink_gpioTold (k : Nat) (l : Link) : (s.setLink k l).gpioTold = s.gpioTold := rfl

/-! ### State.modLife -/

@[simp] theorem State.modLife_pending (f : Life → Life) : (s.modLife f).pending = s.pending := rfl
@[simp] theorem State.modLife_now (f : Life → Life) : (s.modLife f).now = s.now := rfl
@[simp] theorem State.modLife_draws (f : Life → Life) : (s.modLife f).draws = s.draws := rfl
@[simp] theorem State.modLife_out (f : Life → Life) : (s.modLife f).out = s.out := rfl
@[simp] theorem State.modLife_regs (f : Life → Life) : (s.modLife f).regs = s.regs := rfl
@[simp] theorem State.modLife_app (f : Life → Life) : (s.modLife f).app = s.app := rfl
@[simp] theorem State.modLife_votes (f : Life → Life) : (s.modLife f).votes = s.votes := rfl
@[simp] theorem State.modLife_voteRuns (f : Life → Life) : (s.modLife f).voteRuns = s.voteRuns := rfl
@[simp] theorem State.modLife_voteFirst (f : Life → Life) : (s.modLife f).voteFirst = s.voteFirst := rfl
@[simp] theorem State.modLife_voteRepairs (f : Life → Life) : (s.modLife f).voteRepairs = s.voteRepairs := rfl
@[simp] theorem State.modLife_latches (f : Life → Life) : (s.modLife f).latches = s.latches := rfl
@[simp] theorem State.modLife_tally (f : Life → Life) : (s.modLife f).tally = s.tally := rfl
@[simp] theorem State.modLife_arrivals (f : Life → Life) : (s.modLife f).arrivals = s.arrivals := rfl
@[simp] theorem State.modLife_limits (f : Life → Life) : (s.modLife f).limits = s.limits := rfl
@[simp] theorem State.modLife_tclk (f : Life → Life) : (s.modLife f).tclk = s.tclk := rfl
@[simp] theorem State.modLife_nclk (f : Life → Life) : (s.modLife f).nclk = s.nclk := rfl
@[simp] theorem State.modLife_tiles (f : Life → Life) : (s.modLife f).tiles = s.tiles := rfl
@[simp] theorem State.modLife_rangers (f : Life → Life) : (s.modLife f).rangers = s.rangers := rfl
@[simp] theorem State.modLife_notices (f : Life → Life) : (s.modLife f).notices = s.notices := rfl
@[simp] theorem State.modLife_barriers (f : Life → Life) : (s.modLife f).barriers = s.barriers := rfl
@[simp] theorem State.modLife_spad (f : Life → Life) : (s.modLife f).spad = s.spad := rfl
@[simp] theorem State.modLife_spMark (f : Life → Life) : (s.modLife f).spMark = s.spMark := rfl
@[simp] theorem State.modLife_spTag (f : Life → Life) : (s.modLife f).spTag = s.spTag := rfl
@[simp] theorem State.modLife_mrow (f : Life → Life) : (s.modLife f).mrow = s.mrow := rfl
@[simp] theorem State.modLife_mflip (f : Life → Life) : (s.modLife f).mflip = s.mflip := rfl
@[simp] theorem State.modLife_rgRec (f : Life → Life) : (s.modLife f).rgRec = s.rgRec := rfl
@[simp] theorem State.modLife_health (f : Life → Life) : (s.modLife f).health = s.health := rfl
@[simp] theorem State.modLife_macCnt (f : Life → Life) : (s.modLife f).macCnt = s.macCnt := rfl
@[simp] theorem State.modLife_restoreQ (f : Life → Life) : (s.modLife f).restoreQ = s.restoreQ := rfl
@[simp] theorem State.modLife_restore (f : Life → Life) : (s.modLife f).restore = s.restore := rfl
@[simp] theorem State.modLife_errLog (f : Life → Life) : (s.modLife f).errLog = s.errLog := rfl
@[simp] theorem State.modLife_errLostSec (f : Life → Life) : (s.modLife f).errLostSec = s.errLostSec := rfl
@[simp] theorem State.modLife_repairs (f : Life → Life) : (s.modLife f).repairs = s.repairs := rfl
@[simp] theorem State.modLife_charges (f : Life → Life) : (s.modLife f).charges = s.charges := rfl
@[simp] theorem State.modLife_opsecAt (f : Life → Life) : (s.modLife f).opsecAt = s.opsecAt := rfl
@[simp] theorem State.modLife_hbm (f : Life → Life) : (s.modLife f).hbm = s.hbm := rfl
@[simp] theorem State.modLife_hbmMark (f : Life → Life) : (s.modLife f).hbmMark = s.hbmMark := rfl
@[simp] theorem State.modLife_hbmCtl (f : Life → Life) : (s.modLife f).hbmCtl = s.hbmCtl := rfl
@[simp] theorem State.modLife_sram (f : Life → Life) : (s.modLife f).sram = s.sram := rfl
@[simp] theorem State.modLife_flash (f : Life → Life) : (s.modLife f).flash = s.flash := rfl
@[simp] theorem State.modLife_txns (f : Life → Life) : (s.modLife f).txns = s.txns := rfl
@[simp] theorem State.modLife_txnOrd (f : Life → Life) : (s.modLife f).txnOrd = s.txnOrd := rfl
@[simp] theorem State.modLife_links (f : Life → Life) : (s.modLife f).links = s.links := rfl
@[simp] theorem State.modLife_winWait (f : Life → Life) : (s.modLife f).winWait = s.winWait := rfl
@[simp] theorem State.modLife_heldReqs (f : Life → Life) : (s.modLife f).heldReqs = s.heldReqs := rfl
@[simp] theorem State.modLife_closeNotes (f : Life → Life) : (s.modLife f).closeNotes = s.closeNotes := rfl
@[simp] theorem State.modLife_streams (f : Life → Life) : (s.modLife f).streams = s.streams := rfl
@[simp] theorem State.modLife_time (f : Life → Life) : (s.modLife f).time = s.time := rfl
@[simp] theorem State.modLife_odo (f : Life → Life) : (s.modLife f).odo = s.odo := rfl
@[simp] theorem State.modLife_odoAb (f : Life → Life) : (s.modLife f).odoAb = s.odoAb := rfl
@[simp] theorem State.modLife_ingest (f : Life → Life) : (s.modLife f).ingest = s.ingest := rfl
@[simp] theorem State.modLife_blaze (f : Life → Life) : (s.modLife f).blaze = s.blaze := rfl
@[simp] theorem State.modLife_faultCodes (f : Life → Life) : (s.modLife f).faultCodes = s.faultCodes := rfl
@[simp] theorem State.modLife_doms (f : Life → Life) : (s.modLife f).doms = s.doms := rfl
@[simp] theorem State.modLife_quads (f : Life → Life) : (s.modLife f).quads = s.quads := rfl
@[simp] theorem State.modLife_cap (f : Life → Life) : (s.modLife f).cap = s.cap := rfl
@[simp] theorem State.modLife_phCnt (f : Life → Life) : (s.modLife f).phCnt = s.phCnt := rfl
@[simp] theorem State.modLife_rack (f : Life → Life) : (s.modLife f).rack = s.rack := rfl
@[simp] theorem State.modLife_panel (f : Life → Life) : (s.modLife f).panel = s.panel := rfl
@[simp] theorem State.modLife_blz (f : Life → Life) : (s.modLife f).blz = s.blz := rfl
@[simp] theorem State.modLife_svc (f : Life → Life) : (s.modLife f).svc = s.svc := rfl
@[simp] theorem State.modLife_uarts (f : Life → Life) : (s.modLife f).uarts = s.uarts := rfl
@[simp] theorem State.modLife_pinLevel (f : Life → Life) : (s.modLife f).pinLevel = s.pinLevel := rfl
@[simp] theorem State.modLife_gpioHeld (f : Life → Life) : (s.modLife f).gpioHeld = s.gpioHeld := rfl
@[simp] theorem State.modLife_gpioTold (f : Life → Life) : (s.modLife f).gpioTold = s.gpioTold := rfl

/-! ### State.modSvc -/

@[simp] theorem State.modSvc_pending (f : Svc → Svc) : (s.modSvc f).pending = s.pending := rfl
@[simp] theorem State.modSvc_now (f : Svc → Svc) : (s.modSvc f).now = s.now := rfl
@[simp] theorem State.modSvc_draws (f : Svc → Svc) : (s.modSvc f).draws = s.draws := rfl
@[simp] theorem State.modSvc_out (f : Svc → Svc) : (s.modSvc f).out = s.out := rfl
@[simp] theorem State.modSvc_regs (f : Svc → Svc) : (s.modSvc f).regs = s.regs := rfl
@[simp] theorem State.modSvc_app (f : Svc → Svc) : (s.modSvc f).app = s.app := rfl
@[simp] theorem State.modSvc_votes (f : Svc → Svc) : (s.modSvc f).votes = s.votes := rfl
@[simp] theorem State.modSvc_voteRuns (f : Svc → Svc) : (s.modSvc f).voteRuns = s.voteRuns := rfl
@[simp] theorem State.modSvc_voteFirst (f : Svc → Svc) : (s.modSvc f).voteFirst = s.voteFirst := rfl
@[simp] theorem State.modSvc_voteRepairs (f : Svc → Svc) : (s.modSvc f).voteRepairs = s.voteRepairs := rfl
@[simp] theorem State.modSvc_latches (f : Svc → Svc) : (s.modSvc f).latches = s.latches := rfl
@[simp] theorem State.modSvc_tally (f : Svc → Svc) : (s.modSvc f).tally = s.tally := rfl
@[simp] theorem State.modSvc_arrivals (f : Svc → Svc) : (s.modSvc f).arrivals = s.arrivals := rfl
@[simp] theorem State.modSvc_limits (f : Svc → Svc) : (s.modSvc f).limits = s.limits := rfl
@[simp] theorem State.modSvc_tclk (f : Svc → Svc) : (s.modSvc f).tclk = s.tclk := rfl
@[simp] theorem State.modSvc_nclk (f : Svc → Svc) : (s.modSvc f).nclk = s.nclk := rfl
@[simp] theorem State.modSvc_tiles (f : Svc → Svc) : (s.modSvc f).tiles = s.tiles := rfl
@[simp] theorem State.modSvc_rangers (f : Svc → Svc) : (s.modSvc f).rangers = s.rangers := rfl
@[simp] theorem State.modSvc_notices (f : Svc → Svc) : (s.modSvc f).notices = s.notices := rfl
@[simp] theorem State.modSvc_barriers (f : Svc → Svc) : (s.modSvc f).barriers = s.barriers := rfl
@[simp] theorem State.modSvc_spad (f : Svc → Svc) : (s.modSvc f).spad = s.spad := rfl
@[simp] theorem State.modSvc_spMark (f : Svc → Svc) : (s.modSvc f).spMark = s.spMark := rfl
@[simp] theorem State.modSvc_spTag (f : Svc → Svc) : (s.modSvc f).spTag = s.spTag := rfl
@[simp] theorem State.modSvc_mrow (f : Svc → Svc) : (s.modSvc f).mrow = s.mrow := rfl
@[simp] theorem State.modSvc_mflip (f : Svc → Svc) : (s.modSvc f).mflip = s.mflip := rfl
@[simp] theorem State.modSvc_rgRec (f : Svc → Svc) : (s.modSvc f).rgRec = s.rgRec := rfl
@[simp] theorem State.modSvc_health (f : Svc → Svc) : (s.modSvc f).health = s.health := rfl
@[simp] theorem State.modSvc_macCnt (f : Svc → Svc) : (s.modSvc f).macCnt = s.macCnt := rfl
@[simp] theorem State.modSvc_restoreQ (f : Svc → Svc) : (s.modSvc f).restoreQ = s.restoreQ := rfl
@[simp] theorem State.modSvc_restore (f : Svc → Svc) : (s.modSvc f).restore = s.restore := rfl
@[simp] theorem State.modSvc_errLog (f : Svc → Svc) : (s.modSvc f).errLog = s.errLog := rfl
@[simp] theorem State.modSvc_errLostSec (f : Svc → Svc) : (s.modSvc f).errLostSec = s.errLostSec := rfl
@[simp] theorem State.modSvc_repairs (f : Svc → Svc) : (s.modSvc f).repairs = s.repairs := rfl
@[simp] theorem State.modSvc_charges (f : Svc → Svc) : (s.modSvc f).charges = s.charges := rfl
@[simp] theorem State.modSvc_opsecAt (f : Svc → Svc) : (s.modSvc f).opsecAt = s.opsecAt := rfl
@[simp] theorem State.modSvc_hbm (f : Svc → Svc) : (s.modSvc f).hbm = s.hbm := rfl
@[simp] theorem State.modSvc_hbmMark (f : Svc → Svc) : (s.modSvc f).hbmMark = s.hbmMark := rfl
@[simp] theorem State.modSvc_hbmCtl (f : Svc → Svc) : (s.modSvc f).hbmCtl = s.hbmCtl := rfl
@[simp] theorem State.modSvc_sram (f : Svc → Svc) : (s.modSvc f).sram = s.sram := rfl
@[simp] theorem State.modSvc_flash (f : Svc → Svc) : (s.modSvc f).flash = s.flash := rfl
@[simp] theorem State.modSvc_txns (f : Svc → Svc) : (s.modSvc f).txns = s.txns := rfl
@[simp] theorem State.modSvc_txnOrd (f : Svc → Svc) : (s.modSvc f).txnOrd = s.txnOrd := rfl
@[simp] theorem State.modSvc_links (f : Svc → Svc) : (s.modSvc f).links = s.links := rfl
@[simp] theorem State.modSvc_winWait (f : Svc → Svc) : (s.modSvc f).winWait = s.winWait := rfl
@[simp] theorem State.modSvc_heldReqs (f : Svc → Svc) : (s.modSvc f).heldReqs = s.heldReqs := rfl
@[simp] theorem State.modSvc_closeNotes (f : Svc → Svc) : (s.modSvc f).closeNotes = s.closeNotes := rfl
@[simp] theorem State.modSvc_streams (f : Svc → Svc) : (s.modSvc f).streams = s.streams := rfl
@[simp] theorem State.modSvc_time (f : Svc → Svc) : (s.modSvc f).time = s.time := rfl
@[simp] theorem State.modSvc_odo (f : Svc → Svc) : (s.modSvc f).odo = s.odo := rfl
@[simp] theorem State.modSvc_odoAb (f : Svc → Svc) : (s.modSvc f).odoAb = s.odoAb := rfl
@[simp] theorem State.modSvc_ingest (f : Svc → Svc) : (s.modSvc f).ingest = s.ingest := rfl
@[simp] theorem State.modSvc_blaze (f : Svc → Svc) : (s.modSvc f).blaze = s.blaze := rfl
@[simp] theorem State.modSvc_faultCodes (f : Svc → Svc) : (s.modSvc f).faultCodes = s.faultCodes := rfl
@[simp] theorem State.modSvc_doms (f : Svc → Svc) : (s.modSvc f).doms = s.doms := rfl
@[simp] theorem State.modSvc_quads (f : Svc → Svc) : (s.modSvc f).quads = s.quads := rfl
@[simp] theorem State.modSvc_cap (f : Svc → Svc) : (s.modSvc f).cap = s.cap := rfl
@[simp] theorem State.modSvc_phCnt (f : Svc → Svc) : (s.modSvc f).phCnt = s.phCnt := rfl
@[simp] theorem State.modSvc_rack (f : Svc → Svc) : (s.modSvc f).rack = s.rack := rfl
@[simp] theorem State.modSvc_panel (f : Svc → Svc) : (s.modSvc f).panel = s.panel := rfl
@[simp] theorem State.modSvc_blz (f : Svc → Svc) : (s.modSvc f).blz = s.blz := rfl
@[simp] theorem State.modSvc_life (f : Svc → Svc) : (s.modSvc f).life = s.life := rfl
@[simp] theorem State.modSvc_uarts (f : Svc → Svc) : (s.modSvc f).uarts = s.uarts := rfl
@[simp] theorem State.modSvc_pinLevel (f : Svc → Svc) : (s.modSvc f).pinLevel = s.pinLevel := rfl
@[simp] theorem State.modSvc_gpioHeld (f : Svc → Svc) : (s.modSvc f).gpioHeld = s.gpioHeld := rfl
@[simp] theorem State.modSvc_gpioTold (f : Svc → Svc) : (s.modSvc f).gpioTold = s.gpioTold := rfl

/-! ### State.setCore -/

@[simp] theorem State.setCore_pending (c : CoreId) (x : Core) : (s.setCore c x).pending = s.pending := by cases c <;> rfl
@[simp] theorem State.setCore_now (c : CoreId) (x : Core) : (s.setCore c x).now = s.now := by cases c <;> rfl
@[simp] theorem State.setCore_draws (c : CoreId) (x : Core) : (s.setCore c x).draws = s.draws := by cases c <;> rfl
@[simp] theorem State.setCore_out (c : CoreId) (x : Core) : (s.setCore c x).out = s.out := by cases c <;> rfl
@[simp] theorem State.setCore_regs (c : CoreId) (x : Core) : (s.setCore c x).regs = s.regs := by cases c <;> rfl
@[simp] theorem State.setCore_app (c : CoreId) (x : Core) : (s.setCore c x).app = s.app := by cases c <;> rfl
@[simp] theorem State.setCore_votes (c : CoreId) (x : Core) : (s.setCore c x).votes = s.votes := by cases c <;> rfl
@[simp] theorem State.setCore_voteRuns (c : CoreId) (x : Core) : (s.setCore c x).voteRuns = s.voteRuns := by cases c <;> rfl
@[simp] theorem State.setCore_voteFirst (c : CoreId) (x : Core) : (s.setCore c x).voteFirst = s.voteFirst := by cases c <;> rfl
@[simp] theorem State.setCore_voteRepairs (c : CoreId) (x : Core) : (s.setCore c x).voteRepairs = s.voteRepairs := by cases c <;> rfl
@[simp] theorem State.setCore_latches (c : CoreId) (x : Core) : (s.setCore c x).latches = s.latches := by cases c <;> rfl
@[simp] theorem State.setCore_tally (c : CoreId) (x : Core) : (s.setCore c x).tally = s.tally := by cases c <;> rfl
@[simp] theorem State.setCore_arrivals (c : CoreId) (x : Core) : (s.setCore c x).arrivals = s.arrivals := by cases c <;> rfl
@[simp] theorem State.setCore_limits (c : CoreId) (x : Core) : (s.setCore c x).limits = s.limits := by cases c <;> rfl
@[simp] theorem State.setCore_tclk (c : CoreId) (x : Core) : (s.setCore c x).tclk = s.tclk := by cases c <;> rfl
@[simp] theorem State.setCore_nclk (c : CoreId) (x : Core) : (s.setCore c x).nclk = s.nclk := by cases c <;> rfl
@[simp] theorem State.setCore_notices (c : CoreId) (x : Core) : (s.setCore c x).notices = s.notices := by cases c <;> rfl
@[simp] theorem State.setCore_barriers (c : CoreId) (x : Core) : (s.setCore c x).barriers = s.barriers := by cases c <;> rfl
@[simp] theorem State.setCore_spad (c : CoreId) (x : Core) : (s.setCore c x).spad = s.spad := by cases c <;> rfl
@[simp] theorem State.setCore_spMark (c : CoreId) (x : Core) : (s.setCore c x).spMark = s.spMark := by cases c <;> rfl
@[simp] theorem State.setCore_spTag (c : CoreId) (x : Core) : (s.setCore c x).spTag = s.spTag := by cases c <;> rfl
@[simp] theorem State.setCore_mrow (c : CoreId) (x : Core) : (s.setCore c x).mrow = s.mrow := by cases c <;> rfl
@[simp] theorem State.setCore_mflip (c : CoreId) (x : Core) : (s.setCore c x).mflip = s.mflip := by cases c <;> rfl
@[simp] theorem State.setCore_rgRec (c : CoreId) (x : Core) : (s.setCore c x).rgRec = s.rgRec := by cases c <;> rfl
@[simp] theorem State.setCore_health (c : CoreId) (x : Core) : (s.setCore c x).health = s.health := by cases c <;> rfl
@[simp] theorem State.setCore_macCnt (c : CoreId) (x : Core) : (s.setCore c x).macCnt = s.macCnt := by cases c <;> rfl
@[simp] theorem State.setCore_restoreQ (c : CoreId) (x : Core) : (s.setCore c x).restoreQ = s.restoreQ := by cases c <;> rfl
@[simp] theorem State.setCore_restore (c : CoreId) (x : Core) : (s.setCore c x).restore = s.restore := by cases c <;> rfl
@[simp] theorem State.setCore_errLog (c : CoreId) (x : Core) : (s.setCore c x).errLog = s.errLog := by cases c <;> rfl
@[simp] theorem State.setCore_errLostSec (c : CoreId) (x : Core) : (s.setCore c x).errLostSec = s.errLostSec := by cases c <;> rfl
@[simp] theorem State.setCore_repairs (c : CoreId) (x : Core) : (s.setCore c x).repairs = s.repairs := by cases c <;> rfl
@[simp] theorem State.setCore_charges (c : CoreId) (x : Core) : (s.setCore c x).charges = s.charges := by cases c <;> rfl
@[simp] theorem State.setCore_opsecAt (c : CoreId) (x : Core) : (s.setCore c x).opsecAt = s.opsecAt := by cases c <;> rfl
@[simp] theorem State.setCore_hbm (c : CoreId) (x : Core) : (s.setCore c x).hbm = s.hbm := by cases c <;> rfl
@[simp] theorem State.setCore_hbmMark (c : CoreId) (x : Core) : (s.setCore c x).hbmMark = s.hbmMark := by cases c <;> rfl
@[simp] theorem State.setCore_hbmCtl (c : CoreId) (x : Core) : (s.setCore c x).hbmCtl = s.hbmCtl := by cases c <;> rfl
@[simp] theorem State.setCore_sram (c : CoreId) (x : Core) : (s.setCore c x).sram = s.sram := by cases c <;> rfl
@[simp] theorem State.setCore_flash (c : CoreId) (x : Core) : (s.setCore c x).flash = s.flash := by cases c <;> rfl
@[simp] theorem State.setCore_txns (c : CoreId) (x : Core) : (s.setCore c x).txns = s.txns := by cases c <;> rfl
@[simp] theorem State.setCore_txnOrd (c : CoreId) (x : Core) : (s.setCore c x).txnOrd = s.txnOrd := by cases c <;> rfl
@[simp] theorem State.setCore_links (c : CoreId) (x : Core) : (s.setCore c x).links = s.links := by cases c <;> rfl
@[simp] theorem State.setCore_winWait (c : CoreId) (x : Core) : (s.setCore c x).winWait = s.winWait := by cases c <;> rfl
@[simp] theorem State.setCore_heldReqs (c : CoreId) (x : Core) : (s.setCore c x).heldReqs = s.heldReqs := by cases c <;> rfl
@[simp] theorem State.setCore_closeNotes (c : CoreId) (x : Core) : (s.setCore c x).closeNotes = s.closeNotes := by cases c <;> rfl
@[simp] theorem State.setCore_streams (c : CoreId) (x : Core) : (s.setCore c x).streams = s.streams := by cases c <;> rfl
@[simp] theorem State.setCore_time (c : CoreId) (x : Core) : (s.setCore c x).time = s.time := by cases c <;> rfl
@[simp] theorem State.setCore_odo (c : CoreId) (x : Core) : (s.setCore c x).odo = s.odo := by cases c <;> rfl
@[simp] theorem State.setCore_odoAb (c : CoreId) (x : Core) : (s.setCore c x).odoAb = s.odoAb := by cases c <;> rfl
@[simp] theorem State.setCore_ingest (c : CoreId) (x : Core) : (s.setCore c x).ingest = s.ingest := by cases c <;> rfl
@[simp] theorem State.setCore_blaze (c : CoreId) (x : Core) : (s.setCore c x).blaze = s.blaze := by cases c <;> rfl
@[simp] theorem State.setCore_faultCodes (c : CoreId) (x : Core) : (s.setCore c x).faultCodes = s.faultCodes := by cases c <;> rfl
@[simp] theorem State.setCore_doms (c : CoreId) (x : Core) : (s.setCore c x).doms = s.doms := by cases c <;> rfl
@[simp] theorem State.setCore_quads (c : CoreId) (x : Core) : (s.setCore c x).quads = s.quads := by cases c <;> rfl
@[simp] theorem State.setCore_cap (c : CoreId) (x : Core) : (s.setCore c x).cap = s.cap := by cases c <;> rfl
@[simp] theorem State.setCore_phCnt (c : CoreId) (x : Core) : (s.setCore c x).phCnt = s.phCnt := by cases c <;> rfl
@[simp] theorem State.setCore_rack (c : CoreId) (x : Core) : (s.setCore c x).rack = s.rack := by cases c <;> rfl
@[simp] theorem State.setCore_panel (c : CoreId) (x : Core) : (s.setCore c x).panel = s.panel := by cases c <;> rfl
@[simp] theorem State.setCore_blz (c : CoreId) (x : Core) : (s.setCore c x).blz = s.blz := by cases c <;> rfl
@[simp] theorem State.setCore_svc (c : CoreId) (x : Core) : (s.setCore c x).svc = s.svc := by cases c <;> rfl
@[simp] theorem State.setCore_life (c : CoreId) (x : Core) : (s.setCore c x).life = s.life := by cases c <;> rfl
@[simp] theorem State.setCore_uarts (c : CoreId) (x : Core) : (s.setCore c x).uarts = s.uarts := by cases c <;> rfl
@[simp] theorem State.setCore_pinLevel (c : CoreId) (x : Core) : (s.setCore c x).pinLevel = s.pinLevel := by cases c <;> rfl
@[simp] theorem State.setCore_gpioHeld (c : CoreId) (x : Core) : (s.setCore c x).gpioHeld = s.gpioHeld := by cases c <;> rfl
@[simp] theorem State.setCore_gpioTold (c : CoreId) (x : Core) : (s.setCore c x).gpioTold = s.gpioTold := by cases c <;> rfl

/-! ### State.modCore -/

@[simp] theorem State.modCore_pending (c : CoreId) (f : Core → Core) : (s.modCore c f).pending = s.pending := by cases c <;> rfl
@[simp] theorem State.modCore_now (c : CoreId) (f : Core → Core) : (s.modCore c f).now = s.now := by cases c <;> rfl
@[simp] theorem State.modCore_draws (c : CoreId) (f : Core → Core) : (s.modCore c f).draws = s.draws := by cases c <;> rfl
@[simp] theorem State.modCore_out (c : CoreId) (f : Core → Core) : (s.modCore c f).out = s.out := by cases c <;> rfl
@[simp] theorem State.modCore_regs (c : CoreId) (f : Core → Core) : (s.modCore c f).regs = s.regs := by cases c <;> rfl
@[simp] theorem State.modCore_app (c : CoreId) (f : Core → Core) : (s.modCore c f).app = s.app := by cases c <;> rfl
@[simp] theorem State.modCore_votes (c : CoreId) (f : Core → Core) : (s.modCore c f).votes = s.votes := by cases c <;> rfl
@[simp] theorem State.modCore_voteRuns (c : CoreId) (f : Core → Core) : (s.modCore c f).voteRuns = s.voteRuns := by cases c <;> rfl
@[simp] theorem State.modCore_voteFirst (c : CoreId) (f : Core → Core) : (s.modCore c f).voteFirst = s.voteFirst := by cases c <;> rfl
@[simp] theorem State.modCore_voteRepairs (c : CoreId) (f : Core → Core) : (s.modCore c f).voteRepairs = s.voteRepairs := by cases c <;> rfl
@[simp] theorem State.modCore_latches (c : CoreId) (f : Core → Core) : (s.modCore c f).latches = s.latches := by cases c <;> rfl
@[simp] theorem State.modCore_tally (c : CoreId) (f : Core → Core) : (s.modCore c f).tally = s.tally := by cases c <;> rfl
@[simp] theorem State.modCore_arrivals (c : CoreId) (f : Core → Core) : (s.modCore c f).arrivals = s.arrivals := by cases c <;> rfl
@[simp] theorem State.modCore_limits (c : CoreId) (f : Core → Core) : (s.modCore c f).limits = s.limits := by cases c <;> rfl
@[simp] theorem State.modCore_tclk (c : CoreId) (f : Core → Core) : (s.modCore c f).tclk = s.tclk := by cases c <;> rfl
@[simp] theorem State.modCore_nclk (c : CoreId) (f : Core → Core) : (s.modCore c f).nclk = s.nclk := by cases c <;> rfl
@[simp] theorem State.modCore_notices (c : CoreId) (f : Core → Core) : (s.modCore c f).notices = s.notices := by cases c <;> rfl
@[simp] theorem State.modCore_barriers (c : CoreId) (f : Core → Core) : (s.modCore c f).barriers = s.barriers := by cases c <;> rfl
@[simp] theorem State.modCore_spad (c : CoreId) (f : Core → Core) : (s.modCore c f).spad = s.spad := by cases c <;> rfl
@[simp] theorem State.modCore_spMark (c : CoreId) (f : Core → Core) : (s.modCore c f).spMark = s.spMark := by cases c <;> rfl
@[simp] theorem State.modCore_spTag (c : CoreId) (f : Core → Core) : (s.modCore c f).spTag = s.spTag := by cases c <;> rfl
@[simp] theorem State.modCore_mrow (c : CoreId) (f : Core → Core) : (s.modCore c f).mrow = s.mrow := by cases c <;> rfl
@[simp] theorem State.modCore_mflip (c : CoreId) (f : Core → Core) : (s.modCore c f).mflip = s.mflip := by cases c <;> rfl
@[simp] theorem State.modCore_rgRec (c : CoreId) (f : Core → Core) : (s.modCore c f).rgRec = s.rgRec := by cases c <;> rfl
@[simp] theorem State.modCore_health (c : CoreId) (f : Core → Core) : (s.modCore c f).health = s.health := by cases c <;> rfl
@[simp] theorem State.modCore_macCnt (c : CoreId) (f : Core → Core) : (s.modCore c f).macCnt = s.macCnt := by cases c <;> rfl
@[simp] theorem State.modCore_restoreQ (c : CoreId) (f : Core → Core) : (s.modCore c f).restoreQ = s.restoreQ := by cases c <;> rfl
@[simp] theorem State.modCore_restore (c : CoreId) (f : Core → Core) : (s.modCore c f).restore = s.restore := by cases c <;> rfl
@[simp] theorem State.modCore_errLog (c : CoreId) (f : Core → Core) : (s.modCore c f).errLog = s.errLog := by cases c <;> rfl
@[simp] theorem State.modCore_errLostSec (c : CoreId) (f : Core → Core) : (s.modCore c f).errLostSec = s.errLostSec := by cases c <;> rfl
@[simp] theorem State.modCore_repairs (c : CoreId) (f : Core → Core) : (s.modCore c f).repairs = s.repairs := by cases c <;> rfl
@[simp] theorem State.modCore_charges (c : CoreId) (f : Core → Core) : (s.modCore c f).charges = s.charges := by cases c <;> rfl
@[simp] theorem State.modCore_opsecAt (c : CoreId) (f : Core → Core) : (s.modCore c f).opsecAt = s.opsecAt := by cases c <;> rfl
@[simp] theorem State.modCore_hbm (c : CoreId) (f : Core → Core) : (s.modCore c f).hbm = s.hbm := by cases c <;> rfl
@[simp] theorem State.modCore_hbmMark (c : CoreId) (f : Core → Core) : (s.modCore c f).hbmMark = s.hbmMark := by cases c <;> rfl
@[simp] theorem State.modCore_hbmCtl (c : CoreId) (f : Core → Core) : (s.modCore c f).hbmCtl = s.hbmCtl := by cases c <;> rfl
@[simp] theorem State.modCore_sram (c : CoreId) (f : Core → Core) : (s.modCore c f).sram = s.sram := by cases c <;> rfl
@[simp] theorem State.modCore_flash (c : CoreId) (f : Core → Core) : (s.modCore c f).flash = s.flash := by cases c <;> rfl
@[simp] theorem State.modCore_txns (c : CoreId) (f : Core → Core) : (s.modCore c f).txns = s.txns := by cases c <;> rfl
@[simp] theorem State.modCore_txnOrd (c : CoreId) (f : Core → Core) : (s.modCore c f).txnOrd = s.txnOrd := by cases c <;> rfl
@[simp] theorem State.modCore_links (c : CoreId) (f : Core → Core) : (s.modCore c f).links = s.links := by cases c <;> rfl
@[simp] theorem State.modCore_winWait (c : CoreId) (f : Core → Core) : (s.modCore c f).winWait = s.winWait := by cases c <;> rfl
@[simp] theorem State.modCore_heldReqs (c : CoreId) (f : Core → Core) : (s.modCore c f).heldReqs = s.heldReqs := by cases c <;> rfl
@[simp] theorem State.modCore_closeNotes (c : CoreId) (f : Core → Core) : (s.modCore c f).closeNotes = s.closeNotes := by cases c <;> rfl
@[simp] theorem State.modCore_streams (c : CoreId) (f : Core → Core) : (s.modCore c f).streams = s.streams := by cases c <;> rfl
@[simp] theorem State.modCore_time (c : CoreId) (f : Core → Core) : (s.modCore c f).time = s.time := by cases c <;> rfl
@[simp] theorem State.modCore_odo (c : CoreId) (f : Core → Core) : (s.modCore c f).odo = s.odo := by cases c <;> rfl
@[simp] theorem State.modCore_odoAb (c : CoreId) (f : Core → Core) : (s.modCore c f).odoAb = s.odoAb := by cases c <;> rfl
@[simp] theorem State.modCore_ingest (c : CoreId) (f : Core → Core) : (s.modCore c f).ingest = s.ingest := by cases c <;> rfl
@[simp] theorem State.modCore_blaze (c : CoreId) (f : Core → Core) : (s.modCore c f).blaze = s.blaze := by cases c <;> rfl
@[simp] theorem State.modCore_faultCodes (c : CoreId) (f : Core → Core) : (s.modCore c f).faultCodes = s.faultCodes := by cases c <;> rfl
@[simp] theorem State.modCore_doms (c : CoreId) (f : Core → Core) : (s.modCore c f).doms = s.doms := by cases c <;> rfl
@[simp] theorem State.modCore_quads (c : CoreId) (f : Core → Core) : (s.modCore c f).quads = s.quads := by cases c <;> rfl
@[simp] theorem State.modCore_cap (c : CoreId) (f : Core → Core) : (s.modCore c f).cap = s.cap := by cases c <;> rfl
@[simp] theorem State.modCore_phCnt (c : CoreId) (f : Core → Core) : (s.modCore c f).phCnt = s.phCnt := by cases c <;> rfl
@[simp] theorem State.modCore_rack (c : CoreId) (f : Core → Core) : (s.modCore c f).rack = s.rack := by cases c <;> rfl
@[simp] theorem State.modCore_panel (c : CoreId) (f : Core → Core) : (s.modCore c f).panel = s.panel := by cases c <;> rfl
@[simp] theorem State.modCore_blz (c : CoreId) (f : Core → Core) : (s.modCore c f).blz = s.blz := by cases c <;> rfl
@[simp] theorem State.modCore_svc (c : CoreId) (f : Core → Core) : (s.modCore c f).svc = s.svc := by cases c <;> rfl
@[simp] theorem State.modCore_life (c : CoreId) (f : Core → Core) : (s.modCore c f).life = s.life := by cases c <;> rfl
@[simp] theorem State.modCore_uarts (c : CoreId) (f : Core → Core) : (s.modCore c f).uarts = s.uarts := by cases c <;> rfl
@[simp] theorem State.modCore_pinLevel (c : CoreId) (f : Core → Core) : (s.modCore c f).pinLevel = s.pinLevel := by cases c <;> rfl
@[simp] theorem State.modCore_gpioHeld (c : CoreId) (f : Core → Core) : (s.modCore c f).gpioHeld = s.gpioHeld := by cases c <;> rfl
@[simp] theorem State.modCore_gpioTold (c : CoreId) (f : Core → Core) : (s.modCore c f).gpioTold = s.gpioTold := by cases c <;> rfl

/-! ### Reading back -/

@[simp] theorem State.rd_wr_same (off : Nat) (v : Word) : (s.wr off v).rd off = v := by simp [State.rd, State.wr]
theorem State.rd_wr_other {off off' : Nat} (v : Word) (h : off' ≠ off) : (s.wr off v).rd off' = s.rd off' := by
  simp [State.rd, State.wr, SMap.get_set_other _ h]
theorem State.rd_wr (off off' : Nat) (v : Word) : (s.wr off v).rd off' = if off' = off then v else s.rd off' := by
  by_cases h : off' = off
  · subst h; simp
  · simp [h, State.rd_wr_other s v h]
@[simp] theorem State.wr_wr (off : Nat) (v w : Word) : (s.wr off v).wr off w = s.wr off w := by simp [State.wr]

@[simp] theorem State.tile_setTile_same (n : Nat) (t : Tile) : (s.setTile n t).tile n = t := by
  simp [State.tile, State.setTile]
theorem State.tile_setTile_other {n m : Nat} (t : Tile) (h : m ≠ n) : (s.setTile n t).tile m = s.tile m := by
  simp [State.tile, State.setTile, SMap.get_set_other _ h]
@[simp] theorem State.tile_modTile_same (n : Nat) (f : Tile → Tile) : (s.modTile n f).tile n = f (s.tile n) := by
  simp [State.modTile]
theorem State.tile_modTile_other {n m : Nat} (f : Tile → Tile) (h : m ≠ n) : (s.modTile n f).tile m = s.tile m := by
  simp [State.modTile, State.tile_setTile_other s _ h]
@[simp] theorem State.setTile_setTile (n : Nat) (t u : Tile) : (s.setTile n t).setTile n u = s.setTile n u := by
  simp [State.setTile]
@[simp] theorem State.modTile_modTile (n : Nat) (f g : Tile → Tile) :
    (s.modTile n f).modTile n g = s.modTile n fun t => g (f t) := by simp [State.modTile]

@[simp] theorem State.core_setCore_same (c : CoreId) (x : Core) : (s.setCore c x).core c = x := by
  cases c <;> simp [State.core, State.setCore]
theorem State.core_setCore_other {c d : CoreId} (x : Core) (h : d ≠ c) : (s.setCore c x).core d = s.core d := by
  cases c with
  | tile n => cases d with
    | tile m =>
      have : m.val ≠ n.val := fun e => h (by rw [Fin.ext e])
      simp [State.core, State.setCore, State.tile_modTile_other s _ this]
    | ranger k => rfl
  | ranger k => cases d with
    | tile m => rfl
    | ranger j =>
      have : j.val ≠ k.val := fun e => h (by rw [Fin.ext e])
      simp [State.core, State.setCore, SMap.get_set_other _ this]
@[simp] theorem State.core_modCore_same (c : CoreId) (f : Core → Core) : (s.modCore c f).core c = f (s.core c) := by
  simp [State.modCore]
theorem State.core_modCore_other {c d : CoreId} (f : Core → Core) (h : d ≠ c) : (s.modCore c f).core d = s.core d := by
  simp [State.modCore, State.core_setCore_other s _ h]
@[simp] theorem State.setCore_setCore (c : CoreId) (x y : Core) : (s.setCore c x).setCore c y = s.setCore c y := by
  cases c <;> simp [State.setCore]
@[simp] theorem State.modCore_modCore (c : CoreId) (f g : Core → Core) :
    (s.modCore c f).modCore c g = s.modCore c fun x => g (f x) := by simp [State.modCore]
theorem State.setCore_eq_modCore (c : CoreId) (x : Core) : s.setCore c x = s.modCore c fun _ => x := rfl

@[simp] theorem State.txn_setTxn_same (k : Nat) (t : Txn) : (s.setTxn k t).txn k = some t := by
  simp [State.txn, State.setTxn]
@[simp] theorem State.uart_setUart_same (k : Nat) (u : Uart) : (s.setUart k u).uart k = u := by
  simp [State.uart, State.setUart]
@[simp] theorem State.link_setLink_same (k : Nat) (l : Link) : (s.setLink k l).link k = l := by
  simp [State.link, State.setLink]
@[simp] theorem State.strm_setStrm_same (n : Nat) (x : Strm) : (s.setStrm n x).strm n = x := by
  simp [State.strm, State.setStrm]
@[simp] theorem State.ctl_setCtl_same (i : Nat) (x : HbmCtl) : (s.setCtl i x).ctl i = x := by
  simp [State.ctl, State.setCtl]
@[simp] theorem State.button_setButton_same (b : Nat) (x : Button) : (s.setButton b x).button b = x := by
  simp [State.button, State.setButton]
@[simp] theorem State.modLife_life (f : Life → Life) : (s.modLife f).life = f s.life := rfl
@[simp] theorem State.modSvc_svc (f : Svc → Svc) : (s.modSvc f).svc = f s.svc := rfl
@[simp] theorem State.emit_out (m : Msg) : (s.emit m).out = s.out ++ [m] := rfl

/-! ### Registers of a core -/

@[simp] theorem Core.sreg_zero (x : Core) : x.sreg 0 = 0 := rfl
@[simp] theorem Core.setS_zero (x : Core) (v : Dword) : x.setS 0 v = x := rfl
@[simp] theorem Core.mreg_zero (x : Core) : x.mreg 0 = BitVec.allOnes 64 := rfl
@[simp] theorem Core.setM_zero (x : Core) (v : Dword) : x.setM 0 v = x := rfl

/-- What a write of a scalar register leaves as it was. -/
theorem Core.setS_keeps (x : Core) (r : BitVec 5) (v : Dword) :
    (x.setS r v).pc = x.pc ∧ (x.setS r v).v = x.v ∧ (x.setS r v).m = x.m ∧ (x.setS r v).status = x.status ∧
    (x.setS r v).cause = x.cause ∧ (x.setS r v).epc = x.epc ∧ (x.setS r v).tval = x.tval ∧
    (x.setS r v).phase = x.phase ∧ (x.setS r v).taskid = x.taskid ∧ (x.setS r v).task = x.task ∧
    (x.setS r v).halted = x.halted ∧ (x.setS r v).wait = x.wait ∧ (x.setS r v).deferred = x.deferred ∧
    (x.setS r v).stopReq = x.stopReq ∧ (x.setS r v).icache = x.icache ∧ (x.setS r v).cycle0 = x.cycle0 ∧
    (x.setS r v).quotaWait = x.quotaWait := by
  unfold Core.setS
  split
  · simp
  · split <;> simp

theorem Core.setS_mode (x : Core) (r : BitVec 5) (v : Dword) : (x.setS r v).mode = x.mode := by
  unfold Core.mode
  rw [(Core.setS_keeps x r v).2.2.2.1]

/-- A written scalar register reads as written, and s0 as 0. -/
theorem Core.sreg_setS_same (x : Core) (r : BitVec 5) (v : Dword) : (x.setS r v).sreg r = if r = 0 then 0 else v := by
  have hm := Core.setS_mode x r v
  unfold Core.sreg
  rw [hm]
  unfold Core.setS
  by_cases h : r = 0
  · simp [h]
  · by_cases h2 : r = 2 ∧ x.mode = true
    · simp [h2]
    · simp only [h, h2, if_false, SMap.get_set_same]

/-- A write of a scalar register leaves every other one alone. -/
theorem Core.sreg_setS_other (x : Core) {r q : BitVec 5} (v : Dword) (h : q ≠ r) : (x.setS r v).sreg q = x.sreg q := by
  have ht : q.toNat ≠ r.toNat := fun e => h (BitVec.eq_of_toNat_eq e)
  have hm := Core.setS_mode x r v
  unfold Core.sreg
  rw [hm]
  unfold Core.setS
  by_cases h0 : r = 0
  · simp [h0]
  · by_cases h2 : r = 2 ∧ x.mode = true
    · have hq : ¬(q = 2 ∧ x.mode = true) := fun e => h (e.1.trans h2.1.symm)
      rw [if_neg h0, if_pos h2, if_neg hq, if_neg hq]
    · simp only [h0, h2, if_false, SMap.get_set_other _ ht]

end Sys2Proof.Machine
end

