-- ==== Sys2Proof/Laws/Core.lean ====
section
/-! SUPPORT. What the shared operations of a core do: a command on a chip with a supply, the issue of an instruction, its
completion, and the exceptions of tile sequencers and Ranger cores. -/

namespace Sys2Proof.Machine
open Sys2Proof

/-! ### Commands -/

theorem State.live_off {s : State} (h : s.life.off = true) (f : State → State) : s.live f = s := by simp [State.live, h]

/-- On a chip with a supply a command does `f`; the queue and the clocks stay. -/
theorem State.live_on {s : State} (h : s.life.off = false) (f : State → State) :
    s.live f = { f s with pending := s.pending, now := s.now, nclk := s.nclk } := by simp [State.live, State.apart, h]

/-- A command that itself keeps the queue and the clocks does `f` and nothing else. -/
theorem State.live_eq {s : State} (h : s.life.off = false) {f : State → State} {t : State} (hf : f s = t)
    (h1 : t.pending = s.pending) (h2 : t.now = s.now) (h3 : t.nclk = s.nclk) : s.live f = t := by
  rw [State.live_on h, hf, ← h1, ← h2, ← h3]

theorem State.live_pending (s : State) (f : State → State) : (s.live f).pending = s.pending := by
  unfold State.live; split <;> rfl
theorem State.live_now (s : State) (f : State → State) : (s.live f).now = s.now := by
  unfold State.live; split <;> rfl
theorem State.live_nclk (s : State) (f : State → State) : (s.live f).nclk = s.nclk := by
  unfold State.live; split <;> rfl
theorem State.apart_pending (s : State) (f : State → State) : (s.apart f).pending = s.pending := rfl
theorem State.apart_now (s : State) (f : State → State) : (s.apart f).now = s.now := rfl
theorem State.apart_nclk (s : State) (f : State → State) : (s.apart f).nclk = s.nclk := rfl

/-- A command that keeps the queue and the clocks does `f` and nothing else. -/
theorem State.apart_eq {s : State} {f : State → State} {t : State} (hf : f s = t) (h1 : t.pending = s.pending)
    (h2 : t.now = s.now) (h3 : t.nclk = s.nclk) : s.apart f = t := by rw [State.apart, hf, ← h1, ← h2, ← h3]

/-! ### Cores -/

@[simp] theorem State.modCore_coreRuns_life (s : State) (c : CoreId) (f : Core → Core) :
    (s.modCore c f).life.off = s.life.off := by simp

/-- A core that runs is on a chip with a supply. -/
theorem State.coreRuns_on {s : State} {c : CoreId} (h : s.coreRuns c = true) : s.life.off = false := by
  simp only [State.coreRuns, Bool.and_eq_true, Bool.not_eq_true'] at h
  exact h.1.1.1.1

/-- An instruction that is ready issues with its fetch done. -/
theorem State.issue_ready {s : State} {c : CoreId} (h : s.ready c) (f : State → State) :
    s.issue c f = f (s.modCore c Core.fetched) := by
  obtain ⟨h1, h2, h3, h4, -⟩ := h
  have hf : s.fetch c = .ok (s.cacheLine c ((s.core c).pc.toNat / 64 * 64)) := by
    unfold State.fetch
    rw [if_neg (by omega), if_pos h4]
  have hc : s.cacheLine c ((s.core c).pc.toNat / 64 * 64) = s.modCore c Core.fetched := rfl
  unfold State.issue
  rw [if_pos h1, hf, ← hc]

@[simp] theorem Core.fetched_sreg (x : Core) (r : BitVec 5) : x.fetched.sreg r = x.sreg r := rfl
@[simp] theorem Core.fetched_mreg (x : Core) (r : BitVec 3) : x.fetched.mreg r = x.mreg r := rfl
@[simp] theorem Core.fetched_vreg (x : Core) (r : BitVec 5) : x.fetched.vreg r = x.vreg r := rfl

/-- An instruction that leaves the sequencer's own state alone goes on at `next` when nothing is reported and STEP is 0. -/
theorem State.retireAt_plain {s : State} {c : CoreId} (next : Dword) (h1 : (s.core c).deferred = [])
    (h2 : (s.core c).stopReq = false) :
    s.retireAt c next false = s.modCore c fun x => { x with pc := next, wait := .none } := by
  simp [State.retireAt, State.boundary, h1, h2, lowestDeferred]

/-- A ready instruction that changes its core alone and goes on at `next` has exactly that effect. -/
theorem State.issue_goto {s : State} {c : CoreId} (h : s.ready c) (next : Dword) (f : Core → Core)
    (h1 : (f (s.core c).fetched).deferred = (s.core c).deferred)
    (h2 : (f (s.core c).fetched).stopReq = (s.core c).stopReq) {k : State → State}
    (hk : k (s.modCore c Core.fetched) = ((s.modCore c Core.fetched).modCore c f).retireAt c next false) :
    s.live (fun s => s.issue c k) = s.goto c next f := by
  obtain ⟨-, -, -, -, hd, hr, -⟩ := id h
  refine State.live_eq (State.coreRuns_on h.1) ?_ ?_ ?_ ?_
  · rw [State.issue_ready h, hk, State.modCore_modCore, State.retireAt_plain]
    · simp [State.goto]
    · simp [h1, hd]
    · simp [h2, hr]
  all_goals simp [State.goto]

theorem State.ready_step {s : State} {c : CoreId} (h : s.ready c) : (s.core c).fetched.step = false := h.2.2.2.2.2.2

/-- A ready instruction that replaces its core by a core with the same sequencer state goes on at the next instruction. -/
theorem State.issue_done {s : State} {c : CoreId} (h : s.ready c) (f g : Core → Core)
    (hg : g (s.core c).fetched = f (s.core c).fetched)
    (h1 : (f (s.core c).fetched).deferred = (s.core c).fetched.deferred)
    (h2 : (f (s.core c).fetched).stopReq = (s.core c).fetched.stopReq)
    (h3 : (f (s.core c).fetched).status = (s.core c).fetched.status)
    (h4 : (f (s.core c).fetched).pc = (s.core c).fetched.pc) :
    s.live (fun s => s.issue c fun s => (s.modCore c g).retire c) = s.done c f := by
  refine State.issue_goto h _ f (h1.trans rfl) (h2.trans rfl) ?_
  have e : (s.modCore c Core.fetched).modCore c g = (s.modCore c Core.fetched).modCore c f := by
    simp only [State.modCore, State.core_setCore_same, hg]
  have hs : (f (s.core c).fetched).step = false := by
    rw [Core.step, h3]
    exact State.ready_step h
  show ((s.modCore c Core.fetched).modCore c g).retire c = _
  rw [e, State.retire]
  simp only [State.core_modCore_same, hs, h4]
  rfl

/-- A ready instruction that writes one scalar register. -/
theorem State.alu_ready {s : State} {c : CoreId} (h : s.ready c) (rd : BitVec 5) (f : Core → Dword) (v : Dword)
    (hf : f (s.core c).fetched = v) : s.live (fun s => s.alu c rd f) = s.done c fun x => x.setS rd v := by
  obtain ⟨h0, -, -, h3, -, -, -, -, -, -, -, -, h1, h2, -⟩ := (s.core c).fetched.setS_keeps rd v
  exact State.issue_done h (fun x => x.setS rd v) (fun x => x.setS rd (f x)) (by simp only [hf]) h1 h2 h3 h0

/-- A ready instruction that writes one mask register. -/
theorem State.maskOp_ready {s : State} {c : CoreId} (h : s.ready c) (md : BitVec 3) (f : Core → Dword) (v : Dword)
    (hf : f (s.core c).fetched = v) : s.live (fun s => s.maskOp c md f) = s.done c fun x => x.setM md v := by
  refine State.issue_done h (fun x => x.setM md v) (fun x => x.setM md (f x)) (by simp only [hf]) ?_ ?_ ?_ ?_ <;>
    (simp only [Core.setM]; split <;> rfl)

/-- A ready VARITH instruction of a listed element type. -/
theorem State.varith_ready {s : State} {c : CoreId} (h : s.ready c) (fn5 : Nat) (ty : BitVec 2) (vd vs1 vs2 : BitVec 5)
    (msk : BitVec 3) (f : Nat → Nat → Nat → Nat) (ht : varithTypes fn5 ty.toNat = true) :
    s.live (fun s => s.varith c fn5 ty vd vs1 vs2 msk f) =
      s.lanesDone c ty vd ((s.core c).mreg msk) fun i =>
        f (lane (laneBits ty) ((s.core c).vreg vd) i) (lane (laneBits ty) ((s.core c).vreg vs1) i)
          (lane (laneBits ty) ((s.core c).vreg vs2) i) := by
  have := State.issue_done h (fun x => x.setV vd (maskedLanes ty ((s.core c).mreg msk) (x.vreg vd) fun i =>
      f (lane (laneBits ty) ((s.core c).vreg vd) i) (lane (laneBits ty) ((s.core c).vreg vs1) i)
        (lane (laneBits ty) ((s.core c).vreg vs2) i)))
    (fun x => x.setV vd (maskedLanes ty (x.mreg msk) (x.vreg vd) fun i =>
      f (lane (laneBits ty) (x.vreg vd) i) (lane (laneBits ty) (x.vreg vs1) i) (lane (laneBits ty) (x.vreg vs2) i)))
    rfl rfl rfl rfl rfl
  rw [State.lanesDone, ← this]
  simp only [State.varith, ht, if_true]
  rfl

/-- A ready VMISC instruction. -/
theorem State.vmisc_ready {s : State} {c : CoreId} (h : s.ready c) (vd : BitVec 5) (msk : BitVec 3)
    (f : Core → Nat → Nat) :
    s.live (fun s => s.vmisc c vd msk f) = s.lanesDone c 0 vd ((s.core c).mreg msk) (f (s.core c).fetched) := by
  have := State.issue_done h (fun x => x.setV vd (maskedLanes 0 ((s.core c).mreg msk) (x.vreg vd) (f (s.core c).fetched)))
    (fun x => x.setV vd (maskedLanes 0 (x.mreg msk) (x.vreg vd) (f x))) rfl rfl rfl rfl rfl
  rw [State.lanesDone, ← this]
  rfl

/-- An instruction of tile sequencers on a ready one does its own effect. -/
theorem State.tileOnly_tile {s : State} {n : Fin 144} (h : s.ready (.tile n)) (w : Word) (f : Fin 144 → State → State) :
    s.tileOnly (.tile n) w f = f n (s.modCore (.tile n) Core.fetched) := by
  rw [State.tileOnly, State.issue_ready h]

end Sys2Proof.Machine
end

