-- ==== Sys2Proof/Laws/Events.lean ====
section
/-! SUPPORT. What recording an event and taking an exception leave as they were. -/

namespace Sys2Proof.Machine
open Sys2Proof

/-- The Tally takes records: only its registers, its ring and its queue change. -/
theorem State.drainTally_eq (rs : List TallyRec) (s : State) :
    ∃ regs tally, State.drainTally rs s = { s with regs := regs, tally := tally, arrivals := [] } := by
  induction rs generalizing s with
  | nil => exact ⟨s.regs, s.tally, rfl⟩
  | cons r rs ih =>
    obtain ⟨g, t, h⟩ := ih (State.countWrap { s with tally := s.tally.set {} ((s.rd Reg.TALLY_COUNT).toNat % 1024) r }
      Reg.TALLY_COUNT)
    exact ⟨g, t, by rw [State.drainTally, h]; rfl⟩

theorem State.flowTally_eq (s : State) :
    ∃ regs tally arrivals, s.flowTally = { s with regs := regs, tally := tally, arrivals := arrivals } := by
  unfold State.flowTally
  split
  · exact ⟨s.regs, s.tally, s.arrivals, rfl⟩
  · obtain ⟨g, t, h⟩ := State.drainTally_eq s.arrivals s
    exact ⟨g, t, [], h⟩

theorem State.tallyIn_eq (s : State) (code src : Nat) (d : Dword) :
    ∃ regs tally arrivals, s.tallyIn code src d = { s with regs := regs, tally := tally, arrivals := arrivals } := by
  unfold State.tallyIn
  split
  · exact ⟨_, s.tally, s.arrivals, rfl⟩
  · obtain ⟨g, t, a, h⟩ := State.flowTally_eq { s with arrivals := s.arrivals ++
      [{ time := BitVec.ofNat 48 s.timeNow, code := BitVec.ofNat 16 code, detail := d,
         chip := BitVec.ofNat 8 s.chipId, src := BitVec.ofNat 8 src }] }
    exact ⟨g, t, a, by rw [h]⟩

theorem State.faultRecord_eq (s : State) (code src : Nat) (d : Dword) :
    ∃ regs codes blaze out,
      s.faultRecord code src d = { s with regs := regs, faultCodes := codes, blaze := blaze, out := out } := by
  unfold State.faultRecord
  split
  · exact ⟨s.regs, s.faultCodes, s.blaze, _, rfl⟩
  · split
    · exact ⟨_, s.faultCodes, s.blaze, s.out, rfl⟩
    · exact ⟨s.regs, _, _, s.out, rfl⟩

/-- Raising an event touches registers, the Tally, and, for the events of Table 21-4, the fault ring and the bus to chip
0's island: nothing else. -/
theorem State.raise_eq (s : State) (code src detail : Nat) :
    ∃ regs tally arrivals codes blaze out,
      s.raise code src detail =
        { s with regs := regs, tally := tally, arrivals := arrivals, faultCodes := codes, blaze := blaze, out := out } := by
  obtain ⟨g, t, a, h⟩ := State.tallyIn_eq s code src (BitVec.ofNat 64 detail)
  unfold State.raise
  split
  · obtain ⟨g', c, b, o, h'⟩ := State.faultRecord_eq (s.tallyIn code src (BitVec.ofNat 64 detail)) code src
      (BitVec.ofNat 64 detail)
    exact ⟨g', t, a, c, b, o, by rw [h', h]⟩
  · exact ⟨g, t, a, s.faultCodes, s.blaze, s.out, h⟩

/-- An event that Table 21-4 does not list leaves the fault ring and the outputs alone. -/
theorem State.raise_plain (s : State) {code : Nat} (src detail : Nat) (h : faultEvents.contains code = false) :
    s.raise code src detail = s.tallyIn code src (BitVec.ofNat 64 detail) := by
  unfold State.raise
  rw [h]
  rfl

@[simp] theorem State.raise_pending (s : State) (code src detail : Nat) : (s.raise code src detail).pending = s.pending := by
  obtain ⟨_, _, _, _, _, _, h⟩ := s.raise_eq code src detail; rw [h]
@[simp] theorem State.raise_now (s : State) (code src detail : Nat) : (s.raise code src detail).now = s.now := by
  obtain ⟨_, _, _, _, _, _, h⟩ := s.raise_eq code src detail; rw [h]
@[simp] theorem State.raise_draws (s : State) (code src detail : Nat) : (s.raise code src detail).draws = s.draws := by
  obtain ⟨_, _, _, _, _, _, h⟩ := s.raise_eq code src detail; rw [h]
@[simp] theorem State.raise_app (s : State) (code src detail : Nat) : (s.raise code src detail).app = s.app := by
  obtain ⟨_, _, _, _, _, _, h⟩ := s.raise_eq code src detail; rw [h]
@[simp] theorem State.raise_votes (s : State) (code src detail : Nat) : (s.raise code src detail).votes = s.votes := by
  obtain ⟨_, _, _, _, _, _, h⟩ := s.raise_eq code src detail; rw [h]
@[simp] theorem State.raise_voteRuns (s : State) (code src detail : Nat) : (s.raise code src detail).voteRuns = s.voteRuns := by
  obtain ⟨_, _, _, _, _, _, h⟩ := s.raise_eq code src detail; rw [h]
@[simp] theorem State.raise_voteFirst (s : State) (code src detail : Nat) : (s.raise code src detail).voteFirst = s.voteFirst := by
  obtain ⟨_, _, _, _, _, _, h⟩ := s.raise_eq code src detail; rw [h]
@[simp] theorem State.raise_voteRepairs (s : State) (code src detail : Nat) : (s.raise code src detail).voteRepairs = s.voteRepairs := by
  obtain ⟨_, _, _, _, _, _, h⟩ := s.raise_eq code src detail; rw [h]
@[simp] theorem State.raise_latches (s : State) (code src detail : Nat) : (s.raise code src detail).latches = s.latches := by
  obtain ⟨_, _, _, _, _, _, h⟩ := s.raise_eq code src detail; rw [h]
@[simp] theorem State.raise_limits (s : State) (code src detail : Nat) : (s.raise code src detail).limits = s.limits := by
  obtain ⟨_, _, _, _, _, _, h⟩ := s.raise_eq code src detail; rw [h]
@[simp] theorem State.raise_tclk (s : State) (code src detail : Nat) : (s.raise code src detail).tclk = s.tclk := by
  obtain ⟨_, _, _, _, _, _, h⟩ := s.raise_eq code src detail; rw [h]
@[simp] theorem State.raise_nclk (s : State) (code src detail : Nat) : (s.raise code src detail).nclk = s.nclk := by
  obtain ⟨_, _, _, _, _, _, h⟩ := s.raise_eq code src detail; rw [h]
@[simp] theorem State.raise_tiles (s : State) (code src detail : Nat) : (s.raise code src detail).tiles = s.tiles := by
  obtain ⟨_, _, _, _, _, _, h⟩ := s.raise_eq code src detail; rw [h]
@[simp] theorem State.raise_rangers (s : State) (code src detail : Nat) : (s.raise code src detail).rangers = s.rangers := by
  obtain ⟨_, _, _, _, _, _, h⟩ := s.raise_eq code src detail; rw [h]
@[simp] theorem State.raise_notices (s : State) (code src detail : Nat) : (s.raise code src detail).notices = s.notices := by
  obtain ⟨_, _, _, _, _, _, h⟩ := s.raise_eq code src detail; rw [h]
@[simp] theorem State.raise_barriers (s : State) (code src detail : Nat) : (s.raise code src detail).barriers = s.barriers := by
  obtain ⟨_, _, _, _, _, _, h⟩ := s.raise_eq code src detail; rw [h]
@[simp] theorem State.raise_spad (s : State) (code src detail : Nat) : (s.raise code src detail).spad = s.spad := by
  obtain ⟨_, _, _, _, _, _, h⟩ := s.raise_eq code src detail; rw [h]
@[simp] theorem State.raise_spMark (s : State) (code src detail : Nat) : (s.raise code src detail).spMark = s.spMark := by
  obtain ⟨_, _, _, _, _, _, h⟩ := s.raise_eq code src detail; rw [h]
@[simp] theorem State.raise_spTag (s : State) (code src detail : Nat) : (s.raise code src detail).spTag = s.spTag := by
  obtain ⟨_, _, _, _, _, _, h⟩ := s.raise_eq code src detail; rw [h]
@[simp] theorem State.raise_mrow (s : State) (code src detail : Nat) : (s.raise code src detail).mrow = s.mrow := by
  obtain ⟨_, _, _, _, _, _, h⟩ := s.raise_eq code src detail; rw [h]
@[simp] theorem State.raise_mflip (s : State) (code src detail : Nat) : (s.raise code src detail).mflip = s.mflip := by
  obtain ⟨_, _, _, _, _, _, h⟩ := s.raise_eq code src detail; rw [h]
@[simp] theorem State.raise_rgRec (s : State) (code src detail : Nat) : (s.raise code src detail).rgRec = s.rgRec := by
  obtain ⟨_, _, _, _, _, _, h⟩ := s.raise_eq code src detail; rw [h]
@[simp] theorem State.raise_health (s : State) (code src detail : Nat) : (s.raise code src detail).health = s.health := by
  obtain ⟨_, _, _, _, _, _, h⟩ := s.raise_eq code src detail; rw [h]
@[simp] theorem State.raise_macCnt (s : State) (code src detail : Nat) : (s.raise code src detail).macCnt = s.macCnt := by
  obtain ⟨_, _, _, _, _, _, h⟩ := s.raise_eq code src detail; rw [h]
@[simp] theorem State.raise_restoreQ (s : State) (code src detail : Nat) : (s.raise code src detail).restoreQ = s.restoreQ := by
  obtain ⟨_, _, _, _, _, _, h⟩ := s.raise_eq code src detail; rw [h]
@[simp] theorem State.raise_restore (s : State) (code src detail : Nat) : (s.raise code src detail).restore = s.restore := by
  obtain ⟨_, _, _, _, _, _, h⟩ := s.raise_eq code src detail; rw [h]
@[simp] theorem State.raise_errLog (s : State) (code src detail : Nat) : (s.raise code src detail).errLog = s.errLog := by
  obtain ⟨_, _, _, _, _, _, h⟩ := s.raise_eq code src detail; rw [h]
@[simp] theorem State.raise_errLostSec (s : State) (code src detail : Nat) : (s.raise code src detail).errLostSec = s.errLostSec := by
  obtain ⟨_, _, _, _, _, _, h⟩ := s.raise_eq code src detail; rw [h]
@[simp] theorem State.raise_repairs (s : State) (code src detail : Nat) : (s.raise code src detail).repairs = s.repairs := by
  obtain ⟨_, _, _, _, _, _, h⟩ := s.raise_eq code src detail; rw [h]
@[simp] theorem State.raise_charges (s : State) (code src detail : Nat) : (s.raise code src detail).charges = s.charges := by
  obtain ⟨_, _, _, _, _, _, h⟩ := s.raise_eq code src detail; rw [h]
@[simp] theorem State.raise_opsecAt (s : State) (code src detail : Nat) : (s.raise code src detail).opsecAt = s.opsecAt := by
  obtain ⟨_, _, _, _, _, _, h⟩ := s.raise_eq code src detail; rw [h]
@[simp] theorem State.raise_hbm (s : State) (code src detail : Nat) : (s.raise code src detail).hbm = s.hbm := by
  obtain ⟨_, _, _, _, _, _, h⟩ := s.raise_eq code src detail; rw [h]
@[simp] theorem State.raise_hbmMark (s : State) (code src detail : Nat) : (s.raise code src detail).hbmMark = s.hbmMark := by
  obtain ⟨_, _, _, _, _, _, h⟩ := s.raise_eq code src detail; rw [h]
@[simp] theorem State.raise_hbmCtl (s : State) (code src detail : Nat) : (s.raise code src detail).hbmCtl = s.hbmCtl := by
  obtain ⟨_, _, _, _, _, _, h⟩ := s.raise_eq code src detail; rw [h]
@[simp] theorem State.raise_sram (s : State) (code src detail : Nat) : (s.raise code src detail).sram = s.sram := by
  obtain ⟨_, _, _, _, _, _, h⟩ := s.raise_eq code src detail; rw [h]
@[simp] theorem State.raise_flash (s : State) (code src detail : Nat) : (s.raise code src detail).flash = s.flash := by
  obtain ⟨_, _, _, _, _, _, h⟩ := s.raise_eq code src detail; rw [h]
@[simp] theorem State.raise_txns (s : State) (code src detail : Nat) : (s.raise code src detail).txns = s.txns := by
  obtain ⟨_, _, _, _, _, _, h⟩ := s.raise_eq code src detail; rw [h]
@[simp] theorem State.raise_txnOrd (s : State) (code src detail : Nat) : (s.raise code src detail).txnOrd = s.txnOrd := by
  obtain ⟨_, _, _, _, _, _, h⟩ := s.raise_eq code src detail; rw [h]
@[simp] theorem State.raise_links (s : State) (code src detail : Nat) : (s.raise code src detail).links = s.links := by
  obtain ⟨_, _, _, _, _, _, h⟩ := s.raise_eq code src detail; rw [h]
@[simp] theorem State.raise_winWait (s : State) (code src detail : Nat) : (s.raise code src detail).winWait = s.winWait := by
  obtain ⟨_, _, _, _, _, _, h⟩ := s.raise_eq code src detail; rw [h]
@[simp] theorem State.raise_heldReqs (s : State) (code src detail : Nat) : (s.raise code src detail).heldReqs = s.heldReqs := by
  obtain ⟨_, _, _, _, _, _, h⟩ := s.raise_eq code src detail; rw [h]
@[simp] theorem State.raise_closeNotes (s : State) (code src detail : Nat) : (s.raise code src detail).closeNotes = s.closeNotes := by
  obtain ⟨_, _, _, _, _, _, h⟩ := s.raise_eq code src detail; rw [h]
@[simp] theorem State.raise_streams (s : State) (code src detail : Nat) : (s.raise code src detail).streams = s.streams := by
  obtain ⟨_, _, _, _, _, _, h⟩ := s.raise_eq code src detail; rw [h]
@[simp] theorem State.raise_time (s : State) (code src detail : Nat) : (s.raise code src detail).time = s.time := by
  obtain ⟨_, _, _, _, _, _, h⟩ := s.raise_eq code src detail; rw [h]
@[simp] theorem State.raise_odo (s : State) (code src detail : Nat) : (s.raise code src detail).odo = s.odo := by
  obtain ⟨_, _, _, _, _, _, h⟩ := s.raise_eq code src detail; rw [h]
@[simp] theorem State.raise_odoAb (s : State) (code src detail : Nat) : (s.raise code src detail).odoAb = s.odoAb := by
  obtain ⟨_, _, _, _, _, _, h⟩ := s.raise_eq code src detail; rw [h]
@[simp] theorem State.raise_ingest (s : State) (code src detail : Nat) : (s.raise code src detail).ingest = s.ingest := by
  obtain ⟨_, _, _, _, _, _, h⟩ := s.raise_eq code src detail; rw [h]
@[simp] theorem State.raise_doms (s : State) (code src detail : Nat) : (s.raise code src detail).doms = s.doms := by
  obtain ⟨_, _, _, _, _, _, h⟩ := s.raise_eq code src detail; rw [h]
@[simp] theorem State.raise_quads (s : State) (code src detail : Nat) : (s.raise code src detail).quads = s.quads := by
  obtain ⟨_, _, _, _, _, _, h⟩ := s.raise_eq code src detail; rw [h]
@[simp] theorem State.raise_cap (s : State) (code src detail : Nat) : (s.raise code src detail).cap = s.cap := by
  obtain ⟨_, _, _, _, _, _, h⟩ := s.raise_eq code src detail; rw [h]
@[simp] theorem State.raise_phCnt (s : State) (code src detail : Nat) : (s.raise code src detail).phCnt = s.phCnt := by
  obtain ⟨_, _, _, _, _, _, h⟩ := s.raise_eq code src detail; rw [h]
@[simp] theorem State.raise_rack (s : State) (code src detail : Nat) : (s.raise code src detail).rack = s.rack := by
  obtain ⟨_, _, _, _, _, _, h⟩ := s.raise_eq code src detail; rw [h]
@[simp] theorem State.raise_panel (s : State) (code src detail : Nat) : (s.raise code src detail).panel = s.panel := by
  obtain ⟨_, _, _, _, _, _, h⟩ := s.raise_eq code src detail; rw [h]
@[simp] theorem State.raise_blz (s : State) (code src detail : Nat) : (s.raise code src detail).blz = s.blz := by
  obtain ⟨_, _, _, _, _, _, h⟩ := s.raise_eq code src detail; rw [h]
@[simp] theorem State.raise_svc (s : State) (code src detail : Nat) : (s.raise code src detail).svc = s.svc := by
  obtain ⟨_, _, _, _, _, _, h⟩ := s.raise_eq code src detail; rw [h]
@[simp] theorem State.raise_life (s : State) (code src detail : Nat) : (s.raise code src detail).life = s.life := by
  obtain ⟨_, _, _, _, _, _, h⟩ := s.raise_eq code src detail; rw [h]
@[simp] theorem State.raise_uarts (s : State) (code src detail : Nat) : (s.raise code src detail).uarts = s.uarts := by
  obtain ⟨_, _, _, _, _, _, h⟩ := s.raise_eq code src detail; rw [h]
@[simp] theorem State.raise_pinLevel (s : State) (code src detail : Nat) : (s.raise code src detail).pinLevel = s.pinLevel := by
  obtain ⟨_, _, _, _, _, _, h⟩ := s.raise_eq code src detail; rw [h]
@[simp] theorem State.raise_gpioHeld (s : State) (code src detail : Nat) : (s.raise code src detail).gpioHeld = s.gpioHeld := by
  obtain ⟨_, _, _, _, _, _, h⟩ := s.raise_eq code src detail; rw [h]
@[simp] theorem State.raise_gpioTold (s : State) (code src detail : Nat) : (s.raise code src detail).gpioTold = s.gpioTold := by
  obtain ⟨_, _, _, _, _, _, h⟩ := s.raise_eq code src detail; rw [h]

@[simp] theorem State.raise_core (s : State) (code src detail : Nat) (c : CoreId) :
    (s.raise code src detail).core c = s.core c := by
  cases c <;> simp [State.core, State.tile]

/-! ### Exceptions -/

/-- Recording further exceptions of core c touches its cause and the Tally. -/
theorem State.multi_keeps (c : CoreId) (ds : List Deferred) (s : State) :
    (State.multi c ds s).pending = s.pending ∧ (State.multi c ds s).now = s.now ∧ (State.multi c ds s).nclk = s.nclk ∧
      (State.multi c ds s).life = s.life := by
  induction ds generalizing s with
  | nil => exact ⟨rfl, rfl, rfl, rfl⟩
  | cons d ds ih =>
    obtain ⟨h1, h2, h3, h4⟩ := ih ((s.modCore c fun x => { x with cause := setFld x.cause 7 7 1 }).furtherExc c.index
      (causeWord d.code true d.engine d.unit) d.tval)
    rw [State.multi]
    refine ⟨h1.trans ?_, h2.trans ?_, h3.trans ?_, h4.trans ?_⟩ <;> simp [State.furtherExc]

theorem State.takeExc_keeps (s : State) (c : CoreId) (cause epc tval : Dword) :
    (s.takeExc c cause epc tval).pending = s.pending ∧ (s.takeExc c cause epc tval).now = s.now ∧
      (s.takeExc c cause epc tval).nclk = s.nclk ∧ (s.takeExc c cause epc tval).life = s.life := by
  cases c with
  | tile n => exact ⟨rfl, rfl, rfl, rfl⟩
  | ranger k =>
    simp only [State.takeExc, State.rangerExc, State.rangerHalt]
    split
    · simp
    · split <;> simp

/-- Dropping what is deferred keeps the queue, the clocks and the life of the tray. -/
theorem State.flushDeferred_keeps (s : State) (c : CoreId) :
    (s.flushDeferred c).pending = s.pending ∧ (s.flushDeferred c).now = s.now ∧ (s.flushDeferred c).nclk = s.nclk ∧
      (s.flushDeferred c).life = s.life := by
  obtain ⟨h1, h2, h3, h4⟩ := State.multi_keeps c (s.core c).deferred (s.modCore c fun x => { x with deferred := [] })
  simp only [State.flushDeferred, h1, h2, h3, h4]
  simp

/-- A precise exception keeps the queue, the clocks and the life of the tray. -/
theorem State.precise_keeps (s : State) (c : CoreId) (code : Nat) (tval : Dword) (unit : Nat) :
    (s.precise c code tval unit).pending = s.pending ∧ (s.precise c code tval unit).now = s.now ∧
      (s.precise c code tval unit).nclk = s.nclk ∧ (s.precise c code tval unit).life = s.life := by
  obtain ⟨h1, h2, h3, h4⟩ := State.flushDeferred_keeps
    (s.takeExc c (causeWord code false 0 unit) (s.core c).pc tval) c
  obtain ⟨g1, g2, g3, g4⟩ := State.takeExc_keeps s c (causeWord code false 0 unit) (s.core c).pc tval
  unfold State.precise
  exact ⟨h1.trans g1, h2.trans g2, h3.trans g3, h4.trans g4⟩

/-- A ready instruction that raises a precise exception does that alone. -/
theorem State.issue_trap {s : State} {c : CoreId} (h : s.ready c) (code : Nat) (tval : Dword) {k : State → State}
    (hk : k (s.modCore c Core.fetched) = (s.modCore c Core.fetched).precise c code tval) :
    s.live (fun s => s.issue c k) = s.trapped c code tval := by
  obtain ⟨h1, h2, h3, -⟩ := State.precise_keeps (s.modCore c Core.fetched) c code tval 0
  refine State.live_eq (State.coreRuns_on h.1) ?_ ?_ ?_ ?_
  · rw [State.issue_ready h, hk]; rfl
  · rw [State.trapped, h1]; simp
  · rw [State.trapped, h2]; simp
  · rw [State.trapped, h3]; simp

end Sys2Proof.Machine
end

