-- ==== Sys2Proof/Laws/Lanes.lean ====
section
/-! SUPPORT. The lanes of a vector built lane by lane. -/

namespace Sys2Proof.Machine
open Sys2Proof

/-- The number that holds fields of `w` bits, the first the lowest. -/
def laneSum (w : Nat) (f : Nat → Nat) (l : List Nat) : Nat := l.foldr (fun i a => a * 2 ^ w + f i % 2 ^ w) 0

theorem laneSum_field (w : Nat) (f : Nat → Nat) : ∀ (l : List Nat) (i : Nat) (hi : i < l.length),
    laneSum w f l / 2 ^ (w * i) % 2 ^ w = f l[i] % 2 ^ w
  | x :: l, 0, _ => by simp [laneSum, Nat.add_comm]
  | x :: l, i + 1, hi => by
    have hlt := Nat.mod_lt (f x) (Nat.two_pow_pos w)
    have hp : laneSum w f (x :: l) = laneSum w f l * 2 ^ w + f x % 2 ^ w := rfl
    have hd : laneSum w f (x :: l) / 2 ^ w = laneSum w f l := by
      rw [hp, Nat.mul_comm, Nat.mul_add_div (Nat.two_pow_pos w), Nat.div_eq_of_lt hlt, Nat.add_zero]
    rw [Nat.mul_add, Nat.mul_one, Nat.add_comm, Nat.pow_add, ← Nat.div_div_eq_div_mul, hd]
    exact laneSum_field w f l i (by simpa using hi)

theorem laneSum_lt (w : Nat) (f : Nat → Nat) : ∀ l : List Nat, laneSum w f l < 2 ^ (w * l.length)
  | [] => by simp [laneSum]
  | x :: l => by
    have hlt := Nat.mod_lt (f x) (Nat.two_pow_pos w)
    have ih := laneSum_lt w f l
    have hp : laneSum w f (x :: l) = laneSum w f l * 2 ^ w + f x % 2 ^ w := rfl
    rw [hp, List.length_cons, Nat.mul_add, Nat.mul_one, Nat.pow_add]
    calc laneSum w f l * 2 ^ w + f x % 2 ^ w
        < laneSum w f l * 2 ^ w + 2 ^ w := by omega
      _ = (laneSum w f l + 1) * 2 ^ w := by rw [Nat.add_mul, Nat.one_mul]
      _ ≤ 2 ^ (w * l.length) * 2 ^ w := Nat.mul_le_mul_right _ ih

/-- A lane of a vector that was built lane by lane. -/
theorem lane_ofLanes {w n i : Nat} (f : Nat → Nat) (hi : i < n) (hw : w * n ≤ 2048) :
    lane w (ofLanes w n f) i = f i % 2 ^ w := by
  have h1 := laneSum_field w f (List.range n) i (by simpa using hi)
  have h2 := laneSum_lt w f (List.range n)
  have h3 : laneSum w f (List.range n) < 2 ^ 2048 :=
    Nat.lt_of_lt_of_le h2 (Nat.pow_le_pow_right (by decide) (by simpa using hw))
  show ((BitVec.ofNat 2048 (laneSum w f (List.range n))).toNat >>> (w * i)) % 2 ^ w = _
  rw [BitVec.toNat_ofNat, Nat.mod_eq_of_lt h3, Nat.shiftRight_eq_div_pow, h1, List.getElem_range]

/-- Only the low bits of what is given for a lane count. -/
theorem ofLanes_congr {w n : Nat} {f g : Nat → Nat} (h : ∀ i, i < n → f i % 2 ^ w = g i % 2 ^ w) :
    ofLanes w n f = ofLanes w n g := by
  have key : ∀ l : List Nat, (∀ i ∈ l, i < n) → laneSum w f l = laneSum w g l := by
    intro l
    induction l with
    | nil => exact fun _ => rfl
    | cons x l ih =>
      intro hl
      have e1 : laneSum w f (x :: l) = laneSum w f l * 2 ^ w + f x % 2 ^ w := rfl
      have e2 : laneSum w g (x :: l) = laneSum w g l * 2 ^ w + g x % 2 ^ w := rfl
      rw [e1, e2, ih fun i hi => hl i (List.mem_cons_of_mem _ hi), h x (hl x (by simp))]
  exact congrArg (BitVec.ofNat 2048) (key _ fun i hi => by simpa using hi)

theorem laneBits_laneCount (ty : BitVec 2) : laneBits ty * laneCount ty ≤ 2048 := by
  unfold laneBits laneCount; split <;> decide

theorem lane_lt (w : Nat) (v : BitVec 2048) (i : Nat) : lane w v i < 2 ^ w := Nat.mod_lt _ (Nat.two_pow_pos w)

/-- Two vector results that agree modulo the lane width are the same. -/
theorem State.lanesDone_congr (s : State) (c : CoreId) (ty : BitVec 2) (vd : BitVec 5) (m : Dword) {f g : Nat → Nat}
    (h : ∀ i, i < laneCount ty → f i % 2 ^ laneBits ty = g i % 2 ^ laneBits ty) :
    s.lanesDone c ty vd m f = s.lanesDone c ty vd m g := by
  have e : ∀ old, maskedLanes ty m old f = maskedLanes ty m old g := by
    intro old
    refine ofLanes_congr fun i hi => ?_
    split
    · exact h i hi
    · rfl
  simp only [State.lanesDone, e]

end Sys2Proof.Machine
end

