-- ==== Sys2Proof/Laws/Registers.lean ====
section
/-! SUPPORT. Where the registers of the repeated blocks lie, and what a served register access comes to. -/

namespace Sys2Proof.Machine
open Sys2Proof

/-! ### Where a register lies (Table 3-3) -/

/-- The blocks of Table 3-3 do not overlap. -/
theorem Blk.disjoint {b c : Blk} {off : Nat} (h1 : b.base ≤ off) (h2 : off < b.base + b.count * b.size)
    (h3 : c.base ≤ off) (h4 : off < c.base + c.count * c.size) : c = b := by
  cases b <;> cases c <;> simp [Blk.base, Blk.count, Blk.size] at * <;> omega

/-- An offset within a block is located there. -/
theorem locate_of {b : Blk} {off : Nat} (h1 : b.base ≤ off) (h2 : off < b.base + b.count * b.size) (h3 : b ≠ .mgmt) :
    locate off = some ⟨b, (off - b.base) / b.size, (off - b.base) % b.size⟩ := by
  have hb : (Blk.all.find? fun b => decide (b.base ≤ off ∧ off < b.base + b.count * b.size)) = some b := by
    cases hf : Blk.all.find? fun b => decide (b.base ≤ off ∧ off < b.base + b.count * b.size) with
    | none =>
      have := List.find?_eq_none.1 hf b (by cases b <;> decide)
      simp [h1, h2] at this
    | some c =>
      have := List.find?_some hf
      simp only [decide_eq_true_eq] at this
      rw [Blk.disjoint h1 h2 this.1 this.2]
  rw [locate, hb]
  simp [h3]

theorem locate_tile {n r : Nat} (h : n < 144) (hr : r < 0x1000) : locate (Reg.TILE n r) = some ⟨.tile, n, r⟩ := by
  rw [locate_of (b := .tile) (by simp [Blk.base, Reg.TILE]; omega) (by simp [Blk.base, Blk.count, Blk.size, Reg.TILE]; omega)
    (by decide)]
  simp [Blk.base, Blk.size, Reg.TILE]; omega

theorem locate_yarder {k r : Nat} (h : k < 64) (hr : r < 0x400) : locate (Reg.YARDER k r) = some ⟨.yarder, k, r⟩ := by
  rw [locate_of (b := .yarder) (by simp [Blk.base, Reg.YARDER]; omega)
    (by simp [Blk.base, Blk.count, Blk.size, Reg.YARDER]; omega) (by decide)]
  simp [Blk.base, Blk.size, Reg.YARDER]; omega

theorem locate_hbm {i r : Nat} (h : i < 2) (hr : r < 0x10000) : locate (Reg.HBM i r) = some ⟨.hbm, i, r⟩ := by
  rw [locate_of (b := .hbm) (by simp [Blk.base, Reg.HBM]; omega) (by simp [Blk.base, Blk.count, Blk.size, Reg.HBM]; omega)
    (by decide)]
  simp [Blk.base, Blk.size, Reg.HBM]; omega

theorem locate_uart {k r : Nat} (h : k < 2) (hr : r < 0x1000) : locate (Reg.UART k r) = some ⟨.uart, k, r⟩ := by
  rw [locate_of (b := .uart) (by simp [Blk.base, Reg.UART]; omega) (by simp [Blk.base, Blk.count, Blk.size, Reg.UART]; omega)
    (by decide)]
  simp [Blk.base, Blk.size, Reg.UART]; omega

theorem locate_win {w r : Nat} (h : w < 256) (hr : r < 32) :
    locate (Reg.YFAB_WIN w r) = some ⟨.yfab, 0, 0x1000 + 32 * w + r⟩ := by
  rw [locate_of (b := .yfab) (by simp [Blk.base, Reg.YFAB_WIN]; omega)
    (by simp [Blk.base, Blk.count, Blk.size, Reg.YFAB_WIN]; omega) (by decide)]
  simp [Blk.base, Blk.size, Reg.YFAB_WIN]; omega

theorem locate_str {n r : Nat} (h : n < 64) (hr : r < 64) :
    locate (Reg.STR n r) = some ⟨.landing, 0, 0x1000 + 64 * n + r⟩ := by
  rw [locate_of (b := .landing) (by simp [Blk.base, Reg.STR]; omega)
    (by simp [Blk.base, Blk.count, Blk.size, Reg.STR]; omega) (by decide)]
  simp [Blk.base, Blk.size, Reg.STR]; omega

theorem locate_ranger {k r : Nat} (h : k < 4) (hr : r < 0x40) :
    locate (Reg.RANGER k r) = some ⟨.ranger, 0, 0x100 + 0x40 * k + r⟩ := by
  rw [locate_of (b := .ranger) (by simp [Blk.base, Reg.RANGER]; omega)
    (by simp [Blk.base, Blk.count, Blk.size, Reg.RANGER]; omega) (by decide)]
  simp [Blk.base, Blk.size, Reg.RANGER]; omega

theorem locate_quota {n : Nat} (h : n < 144) :
    locate (Reg.CHOKER_QUOTA n) = some ⟨.choker, 0, 0x100 + 4 * n⟩ := by
  rw [locate_of (b := .choker) (by simp [Blk.base, Reg.CHOKER_QUOTA]; omega)
    (by simp [Blk.base, Blk.count, Blk.size, Reg.CHOKER_QUOTA]; omega) (by decide)]
  simp [Blk.base, Blk.size, Reg.CHOKER_QUOTA]; omega

/-! ### A served access (R60, R88) -/

variable {s : State} {a : Agent} {off : Nat}

theorem State.serves_on (h : s.serves a off) : s.life.off = false := h.1

/-- The accesses that wait at a tile are among those of their agents. -/
theorem State.regQ_of_regWaits (h : s.regWaits a = []) (n : Nat) : ((s.tile n).regQ.any fun w => w.agent == a) = false := by
  have key : ∀ (m : SMap Tile), (m.flatMap fun p => p.2.regQ.filter fun w => w.agent == a) = [] →
      ((SMap.get ({} : Tile) m n).regQ.any fun w => w.agent == a) = false := by
    intro m
    induction m with
    | nil => intro _; rfl
    | cons p m ih =>
      obtain ⟨k, t⟩ := p
      intro hm
      rw [List.flatMap_cons, List.append_eq_nil_iff] at hm
      simp only [SMap.get]
      split
      · have := List.filter_eq_nil_iff.1 hm.1
        exact Bool.eq_false_iff.2 fun e => by
          obtain ⟨w, hw, hb⟩ := List.any_eq_true.1 e
          exact this w hw hb
      · exact ih hm.2
  exact key s.tiles h

/-- An access that nothing holds back does not stall. -/
theorem State.regStall_free (h : s.regFree a off = true) (w : Bool) : s.regStall a w = false := by
  have h0 : s.regWaits a = [] := by
    simp only [State.regFree, Bool.and_eq_true, List.isEmpty_iff] at h
    exact h.1
  cases w <;> simp [State.regStall, h0]

/-- An access that nothing holds back does not wait. -/
theorem State.regWait_free (h : s.regFree a off = true) (w : RegAcc) (hw : w.agent = a) : s.regWait off w = none := by
  simp only [State.regFree, Bool.and_eq_true, List.isEmpty_iff] at h
  unfold State.regWait
  cases hl : locate off with
  | none => rfl
  | some l =>
    have hq := State.regQ_of_regWaits h.1 l.inst
    simp only [hl] at h
    by_cases ht : l.blk = .tile
    · have h2 := h.2
      simp only [ht, bne_self_eq_false, Bool.false_or, Bool.and_eq_true, Bool.not_eq_true'] at h2
      have hh : ((s.tile l.inst).heldWrites.any fun x => x.agent == a && heldRel x.rel) = false := by
        refine Bool.eq_false_iff.2 fun e => ?_
        obtain ⟨x, hx, hb⟩ := List.any_eq_true.1 e
        exact absurd (List.any_eq_true.2 ⟨x, hx, (Bool.and_eq_true _ _ ▸ hb).1⟩) (by rw [h2.1]; simp)
      have ho : (l.rel == Reg.TILE_OWNER && s.ownerBusy l.inst) = false := by
        have := h2.2
        by_cases e : l.rel = Reg.TILE_OWNER <;> simp_all
      have hb : s.regBehind l.inst { w with rel := l.rel } = false := by
        unfold State.regBehind
        simp only [hw, hq, hh]
        cases hww : w.write <;> simp_all
      simp [hb]
    · simp [ht]

/-- A served write is a full write of the register. -/
theorem State.agentWrite_serves (h : s.serves a off) (v : Word) : s.agentWrite a off v = s.regWrite a off v := by
  simp [State.agentWrite, State.busWrite, h.1, h.2.1, State.regStall_free h.2.2, State.regWait_free h.2.2]

/-- A served read has the effects of a read of the register. -/
theorem State.agentRead_serves (h : s.serves a off) (r : Bool) : s.agentRead a off r = (s.readReg a off r).2 := by
  simp [State.agentRead, State.busRead, h.1, h.2.1, State.regStall_free h.2.2, State.regWait_free h.2.2]

/-- A refused write is recorded, and its core takes the exception. -/
theorem State.agentWrite_refused (h : s.life.off = false) {r : Nat} (hr : s.regReason a off 4 off = some r) (v : Word) :
    s.agentWrite a off v = (s.regRefused a.index off true r false).regFault a (s.regAddr off) r true := by
  simp [State.agentWrite, h, hr]

end Sys2Proof.Machine
end

