-- ==== Sys2Proof/WellFormed.lean ====
section
/-! DEFINITION. Which commands the outside world can send: the lengths and ranges that the spec gives the operands beyond what
their types say. -/

namespace Sys2Proof

/-- A cell upset of a word with key below `top`: no lane has both one and two flipped bits. -/
def CellHit.ok (h : CellHit) (top : Nat) : Bool := decide (h.word < top) && h.ones &&& h.twos == 0

/-- A pass has channels 0 to 127 and the checksum lane. -/
def PassHit.okOpt : Option PassHit → Bool
  | none => true
  | some h => decide (h.chan ≤ 128)

/-- A packet carries whole 64-byte words, at most 16 (Table 13-3). -/
def Packet.ok (p : Packet) : Bool := decide (p.data.length % 64 = 0 ∧ p.data.length ≤ 1024)

/-- A frame of Ethernet that Landing accepts has at most 9,216 bytes (R453). -/
def frameOk (f : List Byte) : Bool := decide (1 ≤ f.length ∧ f.length ≤ 9216)

/-- A TTCP datagram: the 16-byte header and at most 1,400 bytes of payload (R502); a shorter one has no whole header. -/
def Ttcp.ok (q : Ttcp) : Bool := decide (q.bytes.length ≤ 1416)

/-- The transitions of a line come one after another, later than `t`. -/
def lineOk (t : Nat) : List Nat → Bool
  | [] => true
  | x :: r => decide (t < x) && lineOk x r

/-- Can the outside world send this command. -/
def Instr.wf : Instr → Bool
  | .voteSweep hits => (hits.before ++ hits.later).all fun h => decide (h.off.toNat % 4 = 0)
  | .envelopeReading _ _ fans peers => decide (fans.length = 4 ∧ peers.length = 3)
  | .passComplete _ _ first rerun => PassHit.okOpt first && PassHit.okOpt rerun
  | .spScrubWord _ hits => hits.all fun h => h.ok 16384
  | .patrolRead _ hits => hits.all fun h => h.ok (2 ^ 30)
  | .flitReceive _ _ bytes => decide (bytes.length = 256)
  | .rd _ p | .wr _ p | .feRd _ p | .feWr _ p | .yarderFePeek _ p | .yarderFeSet _ p | .feClr _ p | .rdRsp _ p
  | .wrAck _ p | .feRsp _ p | .wrBulk _ p | .bulkAck _ p | .packetForward _ p | .report _ p | .grant _ p _
  | .grantAck _ p => p.ok
  | .gvspLeader _ f | .gvspPayload _ f | .gvspTrailer _ f => frameOk f
  | .rxRingFrame _ f => frameOk f.bytes
  | .findingsPoll peers => peers.all fun b => decide (b.length = 128)
  | .portTableRefresh others => others.all fun p => decide (p.2.length = 64)
  | .ttcpHello q | .status q | .ports q | .regRead q | .regWrite q | .tally q | .netSet q | .start q _ | .stop q
  | .quiesce q | .resume q | .findDest q | .findReplay q | .updBegin q | .updData q _ | .updCommit q _ | .budget q
  | .ptpRole q | .ident q | .retain q | .reset q => q.ok
  | .recoveryBegin _ p _ | .recoveryData _ p _ _ | .recoveryCommit _ p _ _ | .recoveryReboot _ p _ => decide (p.length ≤ 1024)
  | .estimatorPeriod counts => decide (counts.length = 8) && counts.all fun c => decide (c.length = 4)
  | .calibration ms => decide (ms.length = 8)
  | .sensorConversion ts => decide (ts.length = 36)
  | .phyLinkUp _ speed _ _ => decide (2 ≤ speed.toNat ∧ speed.toNat ≤ 5)
  | .inventory _ len _ => decide (len.toNat ≤ 64)
  | .writeMultipleBlocks _ _ ds => decide (1 ≤ ds.length ∧ ds.length ≤ 256)
  | .extendedWriteMultipleBlocks _ _ ds => decide (1 ≤ ds.length ∧ ds.length ≤ 65536)
  | .fieldCollapse write => match write with
    | none => true
    | some (_, _, ds, k) => decide (1 ≤ ds.length ∧ k ≤ ds.length)
  | .characterReceive _ line => lineOk 0 line
  | .reflectometryTestEnd _ faults _ => (List.range 4).all fun j => decide ((faults.toNat / 2 ^ (3 * j)) % 8 ≤ 3)
  | .registerWrite .. | .counterLowRead .. | .aliasWrite .. | .voteClr .. | .sweepNow .. | .inletSensorInvalid ..
  | .trayInsert .. | .trayWithdraw | .taskGo .. | .taskResume .. | .taskStop .. | .taskDrainComplete ..
  | .deferredExceptionReport .. | .loadResponse .. | .illegalInstruction .. | .add .. | .sub .. | .and .. | .or ..
  | .xor .. | .sll .. | .srl .. | .sra .. | .slt .. | .sltu .. | .seq .. | .min .. | .max .. | .minu .. | .maxu ..
  | .mul .. | .mulh .. | .mulhu .. | .div .. | .divu .. | .rem .. | .remu .. | .addi .. | .andi .. | .ori .. | .xori ..
  | .slli .. | .srli .. | .srai .. | .slti .. | .sltiu .. | .ldhi .. | .addpch .. | .lb .. | .lh .. | .lw .. | .ld ..
  | .lbu .. | .lhu .. | .lwu .. | .sb .. | .sh .. | .sw .. | .sd .. | .vld .. | .vst .. | .beq .. | .bne .. | .blt ..
  | .bge .. | .bltu .. | .bgeu .. | .jl .. | .jlr .. | .mfsr .. | .mtsr .. | .eret .. | .halt .. | .trap .. | .brk ..
  | .iflush .. | .vadd .. | .vsub .. | .vmul .. | .vfma .. | .vfms .. | .vmax .. | .vmin .. | .vabs .. | .vneg ..
  | .vexp2 .. | .vlog2 .. | .vrcp .. | .vrsq .. | .vand .. | .vor .. | .vxor .. | .vsll .. | .vsrl .. | .vsra ..
  | .vceq .. | .vclt .. | .vcle .. | .vcvt .. | .vredsum .. | .vredmax .. | .vredmin .. | .vperm .. | .vrot ..
  | .vbcast .. | .vext .. | .vins .. | .vmov .. | .vsel .. | .viota .. | .mand .. | .mor .. | .mxor .. | .mandn ..
  | .mfm .. | .mtm .. | .mload .. | .mrun .. | .mscrub .. | .accOpen .. | .accClose .. | .accFlush .. | .accStat ..
  | .accPeek .. | .qout .. | .spFill .. | .spCopy .. | .spOperationEnd .. | .feWrite .. | .feRead .. | .fePeek ..
  | .feSet .. | .feClear .. | .feRetry .. | .feTimeout .. | .dmaPost .. | .dmaWait .. | .bar .. | .waitev .. | .yield ..
  | .yieldEnd .. | .phase .. | .waitTimeout .. | .mloadDone .. | .accCloseEnd .. | .qoutEnd .. | .debugWindowRead ..
  | .debugWindowWrite .. | .spRemoteAccess .. | .gbIdleWriteback .. | .ownerHandover .. | .handoverComplete ..
  | .stripeWrite .. | .cacheWb .. | .cacheInv .. | .cacheMaintEnd .. | .spInitComplete .. | .eventBitSet ..
  | .eventBitClear .. | .dbgRegWrite .. | .hbmRequest .. | .refresh .. | .hbmTempRead .. | .selfRefreshEntry ..
  | .selfRefreshExit .. | .srSequenceComplete .. | .ceClr .. | .ueClr .. | .hbmCeHour .. | .hbmBringup ..
  | .hbmTrainingDone .. | .hbmInitDone .. | .meshPacketRoute .. | .dmaDescriptorStart .. | .dmaDescriptorComplete ..
  | .dmaTimeout .. | .skqRestart .. | .skqSkip .. | .chokerResponse .. | .tagExpiry .. | .quotaWrite ..
  | .trainingComplete .. | .hello .. | .helloAck .. | .linkLost .. | .failover .. | .windowOpen .. | .windowClose ..
  | .closeNote .. | .drained .. | .windowCloseTimeout .. | .linkSleep .. | .retrain .. | .linkCntClr ..
  | .frameTimeout .. | .tokenDelivery .. | .streamRelease .. | .streamEnable .. | .streamLost .. | .txFrameSend ..
  | .macLinkChange .. | .timeStep .. | .odoPreset .. | .odoEdge .. | .findingsDatagram | .taskFaultNotice ..
  | .serviceRestart | .serviceDrainEnd .. | .consoleStatus .. | .consolePorts .. | .consoleTally .. | .consoleRr ..
  | .consoleRw .. | .consoleStart .. | .consoleStop | .consoleQuiesce | .consoleResume | .consoleNet .. | .consoleDest ..
  | .consolePtp .. | .consoleIdent .. | .consoleReset | .consolePoweroff | .consoleRetain | .recoveryAnnounce
  | .recoveryBlockTimeout | .measMissing .. | .capLoopIteration | .railSettled .. | .fixedAck .. | .opEntryWrite ..
  | .capFloorWrite .. | .prioWrite .. | .tileGate .. | .tileWake .. | .tileWakeComplete .. | .quadrantRequest ..
  | .quadrantEntryComplete .. | .quadrantWakeComplete .. | .waitPeriodEnd | .droopDetect .. | .sensorInvalid ..
  | .thermalTrip .. | .tripClear .. | .cruiserCycle | .decreaseTimeout .. | .envelopeMissing .. | .poeGrantRequest ..
  | .poeBudgetWrite .. | .poeOverload .. | .regulatorAlert | .alertRelease | .alertAck .. | .sscApply ..
  | .powerOnReset .. | .trayReset .. | .bootStepTimeout .. | .watchdogArm .. | .wdogKick .. | .watchdogExpiry
  | .swdogKick .. | .scalerWatchdogExpiry | .referenceCheck .. | .referenceReturn | .pllLockLoss .. | .softReset ..
  | .tileReset .. | .retentionWake .. | .inputLoss .. | .rideThrough | .inputLossTimeout | .railFailure .. | .nqRead ..
  | .rqRead .. | .restoreGo .. | .restoreDone | .restoreTimeout .. | .macroScrubRow .. | .logRead .. | .logOverflowSecond
  | .integCntClr .. | .repairMapWrite .. | .repairLock .. | .opsecWrite | .eventRaise .. | .tallyRaise ..
  | .tallyClear .. | .tallyFreeze .. | .detectionCycle .. | .phyLinkDown .. | .cableTdrTimer .. | .cableTest ..
  | .currentSample .. | .portEnableWrite .. | .vinSample .. | .buttonPress .. | .buttonHold .. | .buttonRelease ..
  | .buttonStuck .. | .stayQuiet .. | .readSingleBlock .. | .extendedReadSingleBlock .. | .writeSingleBlock ..
  | .extendedWriteSingleBlock .. | .lockBlock .. | .extendedLockBlock .. | .readMultipleBlocks ..
  | .extendedReadMultipleBlocks .. | .getSystemInformation .. | .extendedGetSystemInformation .. | .lockRecord ..
  | .releaseRecord .. | .readLocks .. | .lockExpiry .. | .blazeRead .. | .blazeWrite .. | .blazeLockRecord ..
  | .blazeReleaseRecord .. | .blazeOpDone .. | .serviceFlagPoll | .glitch .. | .breakReceive .. | .idleLine ..
  | .rxRead .. | .txWrite .. | .characterTransmit .. | .sendBreak .. | .rxFlush .. | .txFlush .. | .funcHandover ..
  | .handoverConnect .. | .gpioEdge .. | .holdupLow .. | .pllLocked .. | .droopEnd .. | .breakEnd ..
  | .breakLengthLimit .. | .accStatEnd .. | .mscrubEnd .. => true

end Sys2Proof
end

