-- ==== Sys2Proof/Tests/Slice0.lean ====
section
/-! SUPPORT. The model's own tests: ill-formed commands refused, the spec's worked examples, and for every statement with
hypotheses a state and operands that meet them. -/

namespace Sys2Proof.Tests
open Sys2Proof Sys2Proof.Machine
set_option maxRecDepth 4000
set_option Elab.async false

/-- A chip that runs: every rail up, every PLL locked, the tray in RUN. -/
def up : State := ((State.reset.wr Reg.CLK_RAIL 0x1FF).wr Reg.CLK_LOCK 0x3F).wr Reg.CLK_LIFE 1

/-- The chip with tile n's task running at address 64, which its instruction cache holds; s5 holds `v`. -/
def tileUp (n : Fin 144) (v : Dword := 0) : State :=
  up.modCore (.tile n) fun x => { x with task := .running, pc := 64, icache := [64] }.setS 5 v

/-- The chip with Ranger core k at address 64, which its instruction cache holds. -/
def rangerUp (k : Fin 4) (status : Dword := 1) : State :=
  up.modCore (.ranger k) fun x => { x with pc := 64, icache := [64], status := status }

/-- The address of byte `o` of tile n's scratchpad, on this chip whatever its number. -/
def own (n : Fin 144) (o : Nat) : Dword := BitVec.ofNat 64 (255 * 2 ^ 40 + 0x1000000000 + n * 2 ^ 20 + o)

/-- A descriptor with the given fields, offset, length and value, and its CRC. -/
def bytes64 (fs : List (Nat × Nat × Nat)) : List Byte :=
  let b := fs.foldl (fun b f => putLe b f.1 f.2.1 f.2.2) (List.replicate 64 0)
  putLe b 62 2 (crc16 (b.take 62))

/-- The tile with those 64 bytes in word 0 of its scratchpad, which s5 names. -/
def withDescr (n : Fin 144) (fs : List (Nat × Nat × Nat)) : State :=
  (tileUp n (own n 0)).putWord n 0 (bytes64 fs)

/-- UART 1 on pins 30 and 31, its receiver and transmitter on, with what it holds. -/
def serial (u : Uart := {}) (ctrl : Word := 3) : State :=
  (((up.wr (Reg.UART 1 Reg.UART_CTRL) ctrl).wr (Reg.PINS_CFG 30) 2).wr (Reg.PINS_CFG 31) 2).setUart 1 u

/-! ### Well-formedness: one ill-formed command for each check -/

/-- A packet of `n` data bytes, and one TTCP datagram of `n` bytes. -/
def packetOf (n : Nat) : Packet :=
  { type := 0, vc := 0, nword := 0, src := 0, dst := 0, tag := 0, status := 0, hops := 0, addr := 0, size := 0, poison := 0,
    data := List.replicate n 0 }
def ttcpOf (n : Nat) : Ttcp := { via := 0, ip := 0, port := 0, bytes := List.replicate n 0, ready := 0 }

theorem test_wf_refuses_lengths :
    [Instr.envelopeReading none none [] [], .flitReceive 0 0 [], .rd 0 (packetOf 63), .wr 63 (packetOf 1088), .findingsPoll [[]],
     .portTableRefresh [(0, [])], .status (ttcpOf 1417), .recoveryData 0 (List.replicate 1025 0) 0 true, .estimatorPeriod [],
     .calibration [], .sensorConversion [], .inventory ⟨false, false, none⟩ 65 0, .writeMultipleBlocks ⟨false, false, none⟩ 0 [],
     .extendedWriteMultipleBlocks ⟨false, false, none⟩ 0 [], .gvspLeader 0 []].all (fun c => !c.wf) = true := by decide +kernel

theorem test_wf_refuses_ranges :
    [Instr.voteSweep ⟨[⟨2, 0, 1⟩], []⟩, .passComplete 0 0 (some ⟨129, 0, 1⟩) none, .spScrubWord 0 [⟨16384, 1, 0, 0⟩],
     .patrolRead 0 [⟨0, 1, 1, 0⟩], .phyLinkUp 0 1 0 0, .characterReceive 0 [5, 5], .reflectometryTestEnd 0 4 0,
     .fieldCollapse (some (⟨false, false, none⟩, 0, [1], 2)), .estimatorPeriod (List.replicate 8 [])].all
      (fun c => !c.wf) = true := by decide +kernel

theorem test_wf_accepts : (Instr.rd 0 (packetOf 64)).wf = true ∧ (Instr.flitReceive 0 0 (List.replicate 256 0)).wf = true ∧
    (Instr.characterReceive 0 [1, 2]).wf = true ∧ (Instr.reset (ttcpOf 17)).wf = true := by decide +kernel

/-! ### Worked examples of the spec, and results computed by hand from its tables -/

/-- Chapter 02: tile 57 lies in Q1; a row has 12 tiles. -/
theorem test_tile57_quadrant : quadOf 57 = 1 ∧ 57 % 12 = 9 ∧ 57 / 12 = 4 := by decide

/-- Chapter 05, encoding two instructions: ADDI s5, s1, -64. -/
theorem test_addi_word : wordI 0x06 0 0xFC0 1 5 = 0xFC001286 := by decide

/-- Table 5-5: the most negative number divided by -1, and a division by zero. -/
theorem test_division_edges : divS (BitVec.intMin 64) (BitVec.allOnes 64) = BitVec.intMin 64 ∧ divS 7 0 = BitVec.allOnes 64 ∧
    remS (BitVec.intMin 64) (BitVec.allOnes 64) = 0 ∧ remU 7 0 = 7 := by decide +kernel

/-- ADD wraps, and goes on to the next word (R142). -/
theorem test_add_wraps : ∃ t, exec (.add (.tile 143) 31 5 5) (tileUp 143 0x8000000000000000) = .next t ∧
    (t.core (.tile 143)).sreg 31 = 0 ∧ (t.core (.tile 143)).pc = 68 := ⟨_, rfl, by decide +kernel, by decide +kernel⟩

/-- Chapter 07, one small pass: S_0 = 60 and S_1 = -23. -/
theorem test_small_pass : groupSums [3, -2, 1, -4] [5, -3, 7, -8] 32 = [60, 0, 0, 0] ∧
    groupSums [3, -2, 1, -4] [-1, 2, 0, 4] 32 = [-23, 0, 0, 0] := by decide +kernel

/-- Chapter 08, R273: t = 4.0 between entries 3 (index 11) and 5 (index 12) gives code 11. -/
theorem test_codebook_tie : nearest (List.replicate 11 (-100) ++ [3, 5]) 0x40800000 = 11 := by decide +kernel

/-- Chapter 08, R272: 2.5 gives 2 and -3.5 gives -4, here as 8-bit codes under scale 1. -/
theorem test_ties_to_even : (encodeElem (.int 8 true) 0x3F80 false 0x40200000).1 = 2 ∧
    (encodeElem (.int 8 true) 0x3F80 false 0xC0600000).1 = 252 := by decide +kernel

/-- Chapter 09, one FP24 update: LFSR 0x5A5A5A steps to 0xB4B4B5, and 1.0 + 2^-17 rounds up only for u ≤ 0x400000. -/
theorem test_fp24_update : lfsrStep 0x5A5A5A = 0xB4B4B5 ∧ fp24Add 0x3F800000 0x37000000 0xB4B4B5 = 0x3F800000 ∧
    fp24Add 0x3F800000 0x37000000 0x400000 = 0x3F800100 := by decide +kernel

/-- Chapter 09, six passes at depth 2: 16,777,216, 1, 1, 1, 1, 1 close at 16,777,220; at depth 0 each 1 is lost. -/
theorem test_six_passes : (
    let six := fun (d : Nat) =>
      let x : Tile := { groups := SMap.set {} [] 0 { isOpen := true, nelem := 1, depth := d } }
      ((([0x4B800000, 0x3F800000, 0x3F800000, 0x3F800000, 0x3F800000, 0x3F800000] : List Word).foldl
        (fun x v => x.applyPass 0 0 v) x).completeBlock 0 0).words.get 0 0
    (six 2, six 0)) = (0x4B800002, 0x4B800000) := by decide +kernel

/-- Chapter 10, decoding an offset: banks 4 to 7 of tile 57 striped, offset 0x40A40 is word 10 of bank 5. -/
theorem test_stripe_offset : (up.wr (Reg.TILE 57 (Reg.TILE_STRIPE 0)) 0xA4).spWord 57 0x40A40 = 5 * 1024 + 10 := by
  decide +kernel

/-- Chapter 11, decoding an HBM address: 0x0234567A40 lies at offset 0x8D15940 of pseudo-channel 58. -/
theorem test_hbm_address : up.hbmDecode 0x0234567A40 = (58, 0x8D15940) := by decide +kernel

/-- Chapter 01, envelope at a warm inlet: 583.3 W at +62.0 °C. -/
theorem test_warm_envelope : envelopeOf (62 * 16) / 160 = 5833 := by decide +kernel

/-- R21 at +56.5 °C: 700 W less 1.5 °C at 16.67 W/°C is 674.995 W, which a cap sum of 675 W exceeds. -/
theorem test_envelope_is_exact : envelopeOf 904 = 674995 * 16 / 10 ∧ envelopeW 904 = 674 := by decide +kernel

/-- Chapter 21, the flag set by a handheld: block 32 reads 2, 2, 0x21, 0x3C. -/
theorem test_record_lock : ∃ t, exec (.lockRecord ⟨false, false, none⟩ 2 0x3C21) up = .next t ∧
    t.block 32 = [2, 2, 0x21, 0x3C] := ⟨_, rfl, by decide +kernel⟩

/-- Chapter 22, a console at 115,200 bit/s: 0x55 whose eight bits last 6,889 cycles gives DIV 54. -/
theorem test_auto_baud : ∃ t, exec (.characterReceive 1 ((List.range 9).map fun i => (6889 * (i + 1) + 4) / 8)) (serial {} 7) = .next t ∧
    t.uartDiv 1 = 54 := ⟨_, rfl, by decide +kernel⟩

/-! ### A state and operands for every statement with hypotheses -/

/-- Where no copy of any voted field has been upset, no register's copies differ. -/
theorem torn_none (s : State) (h : s.votes = []) (r : Nat) : s.torn r = false := by simp [State.torn, h, SMap.get]
theorem winsWhole_none (s : State) (h : s.votes = []) : s.winsWhole := fun r _ _ => torn_none s h r

theorem ready_tile : (tileUp 143).ready (.tile 143) := by unfold State.ready; decide +kernel
theorem ready_ranger : (rangerUp 3).ready (.ranger 3) := by unfold State.ready; decide +kernel
theorem ready_ranger_exc : (rangerUp 3 5).ready (.ranger 3) := by unfold State.ready; decide +kernel

/-! ### Witnesses: states and operands that meet the hypotheses of the statements -/

theorem witness_ScalarRegisterResults : (tileUp 143).ready (.tile 143) ∧ (rangerUp 3).ready (.ranger 3) :=
  ⟨ready_tile, ready_ranger⟩
theorem witness_DivisionResults : (tileUp 143).ready (.tile 143) ∧ (rangerUp 3).ready (.ranger 3) :=
  ⟨ready_tile, ready_ranger⟩
theorem witness_ImmediateResults : (tileUp 143).ready (.tile 143) ∧ (rangerUp 3).ready (.ranger 3) :=
  ⟨ready_tile, ready_ranger⟩
theorem witness_BranchTargets : (tileUp 143).ready (.tile 143) ∧ (rangerUp 3).ready (.ranger 3) :=
  ⟨ready_tile, ready_ranger⟩
theorem witness_JumpsAndLinks : (tileUp 143).ready (.tile 143) ∧ (rangerUp 3).ready (.ranger 3) :=
  ⟨ready_tile, ready_ranger⟩
theorem witness_TrapsRaiseTheirCause : (tileUp 143).ready (.tile 143) ∧ assigned 0xFFFFFFFF = false ∧ assigned 0 = false :=
  ⟨ready_tile, by decide +kernel⟩
theorem witness_TileTakesPreciseException : (tileUp 143).ready (.tile 143) ∧ 63 < 64 := ⟨ready_tile, by decide +kernel⟩
theorem witness_RangerTakesPreciseException :
    ((rangerUp 3).ready (.ranger 3) ∧ ((rangerUp 3).core (.ranger 3)).exc = false ∧ (rangerUp 3).evec 3 = 0x1E00100000) ∧
    ((rangerUp 3 5).ready (.ranger 3) ∧ ((rangerUp 3 5).core (.ranger 3)).exc = true) ∧
    (((rangerUp 3).wr (Reg.RANGER 3 0) 4).ready (.ranger 3) ∧ ((rangerUp 3).wr (Reg.RANGER 3 0) 4).evec 3 ≠ 0x1E00100000) :=
  ⟨⟨ready_ranger, by decide +kernel⟩, ⟨ready_ranger_exc, by decide +kernel⟩, by unfold State.ready; decide, by decide +kernel⟩
theorem witness_ExceptionReturn : (tileUp 143).ready (.tile 143) ∧ (rangerUp 3 5).ready (.ranger 3) :=
  ⟨ready_tile, ready_ranger_exc⟩
theorem witness_HaltDrainsTheTask : (tileUp 143).ready (.tile 143) ∧ (rangerUp 3).ready (.ranger 3) :=
  ⟨ready_tile, ready_ranger⟩
theorem witness_SpecialRegisterAccess : (tileUp 143).ready (.tile 143) ∧ (rangerUp 3).ready (.ranger 3) :=
  ⟨ready_tile, ready_ranger⟩

/-- What the loads and stores of the own scratchpad ask for, at byte `o`. -/
def ownOk (s : State) (n : Fin 144) (o : Nat) : Prop :=
  s.ready (.tile n) ∧ o < 2 ^ 20 ∧ ((s.core (.tile n)).sreg 5).toNat = 255 * 2 ^ 40 + 0x1000000000 + n * 2 ^ 20 + o ∧
    s.seqReach n o ∧ (s.tile n).gb = []

theorem witness_OwnScratchpadLoads : ownOk (tileUp 143 (own 143 0xFFFF8)) 143 0xFFFF8 ∧ 0xFFFF8 % 8 = 0 ∧
    ownOk (tileUp 0 (own 0 0xFFFFF)) 0 0xFFFFF := by
  unfold ownOk State.ready State.seqReach State.mapWhole; decide +kernel
theorem witness_OwnScratchpadStores : ownOk (tileUp 143 (own 143 0xFFFF8)) 143 0xFFFF8 ∧ 0xFFFF8 % 8 = 0 ∧
    ownOk (tileUp 0 (own 0 0xFFFFF)) 0 0xFFFFF := by
  unfold ownOk State.ready State.seqReach State.mapWhole; decide +kernel
theorem witness_OwnVectorLoadAndStore :
    let s := tileUp 143 (own 143 0xFFF00)
    ownOk s 143 0xFFF00 ∧ 0xFFF00 + 256 ≤ 2 ^ 20 ∧ (∀ i, i < 4 → s.seqReach 143 (0xFFF00 + 64 * i)) ∧
      ∀ i, i < 4 → ∀ j, j < 4 → i < j → s.spWord 143 (0xFFF00 + 64 * i) ≠ s.spWord 143 (0xFFF00 + 64 * j) := by
  unfold ownOk State.ready State.seqReach State.mapWhole; decide +kernel
theorem witness_MisalignedAndUnlistedFormsTrap :
    let s := tileUp 143 0x1BFFFFFFFF
    s.ready (.tile 143) ∧ ((s.core (.tile 143)).sreg 5).toNat < 2 ^ 48 ∧ ((s.core (.tile 143)).sreg 5).toNat % 2 ≠ 0 ∧
      ((s.core (.tile 143)).sreg 5).toNat % 2 ^ 40 < 0x1C00000000 := by
  unfold State.ready; decide +kernel
theorem witness_MaskGovernsLanes : 127 < laneCount 1 ∧ 63 < laneCount 2 := by decide +kernel +kernel
theorem witness_VectorIntegerLanes : (tileUp 143).ready (.tile 143) ∧ (rangerUp 3).ready (.ranger 3) :=
  ⟨ready_tile, ready_ranger⟩
theorem witness_VectorFloatLanes : (tileUp 143).ready (.tile 143) ∧ (rangerUp 3).ready (.ranger 3) :=
  ⟨ready_tile, ready_ranger⟩

/-- Operands in both formats: 1.5 and -2^-126, a NaN, an infinity's neighbour, zeros and a subnormal; powers of two as arguments
and 2^127 · 2 as the limit of VEXP2. -/
theorem witness_VectorFloatLanes_operands : ∀ q, q ∈ [7, 23] →
    let u := 2 ^ (126 + q)
    let pat := fun (e : Nat) => e * 2 ^ q
    fpFinite q (pat 127 + 2 ^ (q - 1)) ∧ fpFinite q (pat 1 + 2 ^ (q + 8)) ∧ fpFinite q (pat 254 + 2 ^ q - 1) ∧
      fpNaN q (pat 255 + 1) ∧ ¬fpNaN q (pat 255) ∧ ¬fpNaN q (pat 1) ∧
      fpUnits q (pat 127 + 2 ^ (q - 1)) = 3 * 2 ^ (125 + q) ∧ fpUnits q 0 = 0 ∧ fpUnits q (2 ^ (q + 8) + 1) = 0 ∧
      fpUnits q (pat 128 + 2 ^ (q + 8)) = -(2 * u : Nat) ∧ fpUnits q (pat 134) = 128 * u ∧
      fpUnits q (pat 133 + 2 ^ (q + 8) + 63 * 2 ^ (q - 6)) = -(127 * u : Nat) ∧
      fpUnits q (pat 127) = (1 : Int) * u ∧ fpUnits q (pat 254) = 2 ^ ((127 : Int) + 126 + q).toNat ∧
      fpUnits q (pat 1) = 2 ^ ((-126 : Int) + 126 + q).toNat ∧ fpUnits q (pat 253) = 2 ^ ((2 : Int) * 63 + 126 + q).toNat := by
  unfold fpFinite fpNaN; decide +kernel
theorem witness_VectorCompares : (tileUp 143).ready (.tile 143) ∧ (rangerUp 3).ready (.ranger 3) :=
  ⟨ready_tile, ready_ranger⟩
theorem witness_VectorMoves : (tileUp 143).ready (.tile 143) ∧ (rangerUp 3).ready (.ranger 3) :=
  ⟨ready_tile, ready_ranger⟩
theorem witness_MaskAndElementMoves : (tileUp 143).ready (.tile 143) ∧ (rangerUp 3).ready (.ranger 3) :=
  ⟨ready_tile, ready_ranger⟩

/-- A tile whose banks 0 to 7 and 8 to 15 are two stripes. -/
def striped : State :=
  (up.wr (Reg.TILE 143 (Reg.TILE_STRIPE 0)) 0xB0).wr (Reg.TILE 143 (Reg.TILE_STRIPE 3)) 0xB8

theorem witness_StripesInterleave : striped.stripesOk 143 ∧ striped.spWord 143 0xFFFC0 = striped.spWord 143 0xFFFFF := by
  refine ⟨?_, by decide +kernel⟩
  have h0 : striped.stripe 143 0 = some (0, 8) := by decide +kernel +kernel
  have h1 : striped.stripe 143 1 = none := by decide +kernel +kernel
  have h2 : striped.stripe 143 2 = none := by decide +kernel +kernel
  have h3 : striped.stripe 143 3 = some (8, 8) := by decide +kernel +kernel
  have all : ∀ i f k, i < 4 → striped.stripe 143 i = some (f, k) → i = 0 ∧ f = 0 ∧ k = 8 ∨ i = 3 ∧ f = 8 ∧ k = 8 := by
    intro i f k hi h
    match i, hi with
    | 0, _ => rw [h0] at h; injection h with h; injection h with a b; omega
    | 1, _ => rw [h1] at h; cases h
    | 2, _ => rw [h2] at h; cases h
    | 3, _ => rw [h3] at h; injection h with h; injection h with a b; omega
  intro i f k hi h
  obtain ⟨rfl, rfl, rfl⟩ | ⟨rfl, rfl, rfl⟩ := all i f k hi h <;> refine ⟨by decide +kernel, by decide +kernel, ?_⟩ <;> intro j g l hj hne h' <;>
    have b := all j g l hj h' <;> omega

theorem witness_CoreControlInstructions : (tileUp 143).ready (.tile 143) ∧ (tileUp 143).posted (.tile 143) = 0 ∧
    (rangerUp 3).ready (.ranger 3) ∧ (rangerUp 3).posted (.ranger 3) = 0 :=
  ⟨ready_tile, by decide +kernel, ready_ranger, by decide +kernel⟩

/-- The descriptor instruction may dispatch on the descriptor of code `kind` that s5 names, which `ok` finds in order. -/
def descrOk (s : State) (n : Fin 144) (kind : Nat) (ok : List Byte → Bool) : Prop :=
  s.ready (.tile n) ∧ s.descrAt n ((s.core (.tile n)).sreg 5) kind ∧ ok (s.descrBytes n ((s.core (.tile n)).sreg 5)) = true ∧
    (s.tile n).feeder.length < 2 ∧ (s.tile n).bucker.length < 4 ∧ (s.tile n).chipper.length < 2

/-- An MLOAD of 16 channels of 8 bits into row-group 31 from HBM address 0; an MRUN of macro 15. -/
def mloadD : State := withDescr 143 [(0, 1, 1), (1, 1, 15), (2, 1, 31), (3, 1, 1), (4, 1, 0x08), (6, 2, 16), (8, 8, 255 * 2 ^ 40)]
def mrunD : State := withDescr 143 [(0, 1, 2), (2, 2, 0x8000), (4, 1, 8), (5, 1, 8), (8, 1, 31), (9, 1, 1), (10, 2, 1), (12, 1, 63)]
def accOpenD : State := withDescr 143 [(0, 1, 3), (1, 1, 63), (2, 1, 4), (4, 2, 1), (6, 2, 16379)]
def accCloseD (dest : Nat) : State :=
  ((withDescr 143 [(0, 1, 4), (1, 1, 63), (2, 1, 16 * dest), (4, 2, 128), (8, 8, (own 143 0x10000).toNat), (28, 4, 64)]).putWord 143 1
    (bytes64 [(0, 1, 6), (1, 1, 2), (2, 1, 8), (6, 2, 128), (8, 4, 1)])).modTile 143 fun t =>
      { t with issuedNelem := t.issuedNelem.set 0 63 128 }
def accStatD : State := withDescr 143 [(0, 1, 5), (2, 2, 1), (4, 4, 1)]
def qoutD : State := withDescr 143 [(0, 1, 6), (2, 1, 8), (6, 2, 128), (8, 4, 1)]

theorem witness_EngineInstructionsDispatch :
    descrOk mloadD 143 1 (mloadD.mloadOk 143) ∧ descrOk mrunD 143 2 mrunOk ∧ descrOk accOpenD 143 3 accOpenOk ∧
    descrOk (accCloseD 0) 143 4 (fun d => (accCloseD 0).accCloseOk 143 d 128) ∧
    (let s := accCloseD 2
     let q := BitVec.ofNat 64 (s.spAddr 143 64)
     descrOk s 143 4 (fun d => s.accCloseOk 143 d 128) ∧ s.descrAt 143 q 6 ∧ qoutOk (s.descrBytes 143 q) (some 128) = true) ∧
    descrOk accStatD 143 5 accStatOk ∧ descrOk qoutD 143 6 (qoutOk · none) := by
  unfold descrOk State.ready State.descrAt State.seqReach State.mapWhole
  refine ⟨?_, ?_, ?_, ?_, ⟨?_, ?_, ?_⟩, ?_, ?_⟩ <;> (try dsimp only) <;> decide +kernel
theorem witness_TileInstructionsTrapOnRanger : (rangerUp 3).ready (.ranger 3) := ready_ranger

/-- A tile at which DBG is 1 and group 5 is open with 16 elements. -/
def peekable : State := (tileUp 143 5).modTile 143 fun t =>
  { t with core := { t.core with status := 0x40 }, groups := t.groups.set {} 5 { isOpen := true, nelem := 16 } }

theorem witness_AccPeekReadsRunningSum : (tileUp 143).ready (.tile 143) ∧ ((tileUp 143).core (.tile 143)).dbg = false ∧
    peekable.ready (.tile 143) ∧ (peekable.core (.tile 143)).dbg = true ∧
    (peekable.tile 143).mrunBefore 5 0 = false ∧ (peekable.tile 143).bopBefore 5 0 = false ∧
    ((peekable.tile 143).groups.get {} 5).isOpen = true ∧ 15 < ((peekable.tile 143).groups.get {} 5).nelem := by
  unfold State.ready; decide +kernel

/-- A tile with s5 and s6 set. -/
def tile2 (n : Fin 144) (v w : Dword) : State := (tileUp n v).modCore (.tile n) fun x => x.setS 6 w

theorem witness_ScratchpadBackgroundOperations :
    let s := (tile2 143 (own 143 0xFFFC0) 64).modCore (.tile 143) fun x => x.setS 7 (own 143 0)
    s.ready (.tile 143) ∧ (s.tile 143).spop = none ∧
      s.ownRange 143 (own 143 0xFFFC0) 64 = some 0xFFFC0 ∧ s.ownRange 143 (own 143 0) 64 = some 0 ∧
      ∀ o, o ∈ [0xFFFC0, 0] → s.seqStall 143 (s.spWord 143 o) = false ∧ s.ownerOf 143 (s.spWord 143 o) = oSeq := by
  unfold State.ready; decide +kernel

/-- A tile with a fill of its last word at work. -/
def filling : State := up.modTile 143 fun t => { t with spop := some ⟨0xFFFC0, 64, 7, none⟩ }

theorem witness_FillEnds : filling.life.off = false ∧ (filling.tile 143).spop = some ⟨0xFFFC0, 64, 7, none⟩ ∧
    (filling.tile 143).gb = [] := by decide +kernel

theorem witness_FullEmptyOnOwnSlot :
    let s := tile2 143 (own 143 0xFFF80) 2
    let t := s.setTag 143 (s.spWord 143 0xFFF80) true
    s.ready (.tile 143) ∧ ((s.core (.tile 143)).sreg 5).toNat = 255 * 2 ^ 40 + 0x1000000000 + 143 * 2 ^ 20 + 0xFFF80 ∧
      s.slotReach 143 0xFFF80 ∧ s.tag 143 (s.spWord 143 0xFFF80) = false ∧ max ((s.core (.tile 143)).sreg 6).toNat 1 = 2 ∧
      0xFFF80 + 64 * 2 ≤ 2 ^ 20 ∧ (∀ i, i < 2 → s.slotReach 143 (0xFFF80 + 64 * i)) ∧
      t.ready (.tile 143) ∧ t.slotReach 143 0xFFF80 ∧ t.tag 143 (t.spWord 143 0xFFF80) = true ∧
      ((tile2 143 (own 143 0xFFFC0) 0).core (.tile 143)).sreg 6 = 0 := by
  unfold State.ready State.slotReach State.mapWhole; dsimp only; decide +kernel

/-- Tile 143 waits. -/
def waiting (w : Wait) : State := up.modCore (.tile 143) fun x => { x with task := .running, wait := w }

theorem witness_WaitsAndTimeouts :
    ((waiting (.waitev 1 true 3 5)).core (.tile 143)).wait = .waitev 1 true 3 5 ∧
    ((waiting (.dmaWait 7 1 0)).core (.tile 143)).wait = .dmaWait 7 1 0 ∧
    ((waiting (.bar 7 5)).core (.tile 143)).wait = .bar 7 5 ∧
    (∀ sc : Bool,
     let g := (own 143 0xFFFC0).toNat
     let dst := if sc then Dst.scalar 3 8 false else .slotV 3
     let s := (waiting (.fe g none dst none true 5)).setTag 143 16383 true
     let x := s.core (.tile 143)
     s.life.off = false ∧ g % 64 = 0 ∧ g < 2 ^ 48 ∧ s.localAddr g = some (0x1000000000 + 143 * 2 ^ 20 + g % 2 ^ 20) ∧
       s.slotReach 143 (g % 2 ^ 20) ∧ s.tag 143 (s.spWord 143 (g % 2 ^ 20)) = true ∧ x.wait = .fe g none dst none true 5 ∧
       x.step = false ∧ x.deferred = [] ∧ x.stopReq = false ∧
       ((waiting (.fe g none dst none false 0)).core (.tile 143)).wait = .fe g none dst none false 0) ∧
    (let s := tileUp 143 (own 143 0xFFFC0)
     let g := ((s.core (.tile 143)).sreg 5).toNat
     let t := s.setTag 143 16383 true
     s.ready (.tile 143) ∧ g % 64 = 0 ∧ g < 2 ^ 48 ∧ s.localAddr g = some (0x1000000000 + 143 * 2 ^ 20 + g % 2 ^ 20) ∧
       s.slotReach 143 (g % 2 ^ 20) ∧ s.tag 143 (s.spWord 143 (g % 2 ^ 20)) = false ∧
       t.ready (.tile 143) ∧ t.slotReach 143 (g % 2 ^ 20) ∧ t.tag 143 (t.spWord 143 (g % 2 ^ 20)) = true) := by
  unfold State.ready State.slotReach State.mapWhole; dsimp only; decide +kernel

/-- A tile with a FILL descriptor at s5, and queue 7 enabled, its ring of 2 entries in a bank of the Skidder. -/
def posting : State :=
  ((((withDescr 143 [(0, 1, 0x10), (1, 1, 1), (10, 6, (own 143 0).toNat), (22, 2, 1), (24, 4, 64)]).wr
    (Reg.TILE 143 (Reg.TILE_SKQ_CFG 7)) 0x11).wr (Reg.TILE 143 (Reg.TILE_SKQ_BASE 7)) 0xFFF80).wr
      (Reg.TILE 143 (Reg.TILE_OWNER_MAP0 + 4)) 0x41111111)

theorem witness_DmaPostAndWait :
    (let s := posting
     let o := s.skEntry 143 7 (s.skPost 143 7)
     s.ready (.tile 143) ∧ s.descrAt 143 ((s.core (.tile 143)).sreg 5) 0x10 ∧
       dmaOk (s.descrBytes 143 ((s.core (.tile 143)).sreg 5)) = true ∧ s.skEn 143 7 = true ∧ s.skUsed 143 7 < s.skSize 143 7 ∧
       o < 2 ^ 20 ∧ s.handoverHolds 143 (s.spWord 143 o) oSkid = false ∧ s.ownerOf 143 (s.spWord 143 o) = oSkid ∧
       gbFind (s.tile 143).gb (s.spWord 143 o) = none) ∧
    0 ≤ ((tileUp 143 0).skDone 143 7 - (0 : Dword).setWidth 32).toInt ∧
    ((tileUp 143 1).skDone 143 7 - (1 : Dword).setWidth 32).toInt < 0 := by
  unfold State.ready State.descrAt State.seqReach State.mapWhole; dsimp only; decide +kernel

/-- Tile 143 in a crew of two tiles. -/
def crewed : State := (tileUp 143 1).modCore (.tile 143) fun x => { x with taskid := 0x100000000 }

theorem witness_BarrierAndEventWaits :
    ((tileUp 143 1).ready (.tile 143) ∧ (tileUp 143 1).barriers.get [] 7 = [] ∧ ((tileUp 143 1).core (.tile 143)).crewSize = 0 ∧
      evSatisfied ((tileUp 143 1).eventBits (.tile 143)) 1 true = false ∧
      evSatisfied ((tileUp 143 1).eventBits (.tile 143)) 0 true = true ∧
      evSatisfied ((tileUp 143 1).eventBits (.tile 143)) (BitVec.ofNat 64 (2 ^ 60)) true = true) ∧
    crewed.ready (.tile 143) ∧ (crewed.core (.tile 143)).crewSize ≠ 0 := by
  unfold State.ready; decide +kernel

/-! The machine -/

theorem witness_StepTakesTheFrontCommand : ({ up with pending := [.rideThrough] } : State).pending = .rideThrough :: [] := rfl
theorem witness_IdleStepPassesTime : up.pending = [] ∧ up.life.off = false ∧
    ({ up with life := { up.life with off := true } } : State).life.off = true := by decide +kernel
theorem witness_ClocksStayInStep : State.reset.clocked ∧ ∃ t, step State.reset = .next t ∧ t.clocked := by
  refine ⟨by unfold State.clocked; decide +kernel, State.reset.tick, rfl, ?_⟩
  unfold State.clocked; decide +kernel
theorem witness_QueueDrainsInOrder : ∃ t, Sys2Proof.core.run 1 ({ up with pending := [.rideThrough] } : State) = .next t :=
  ⟨_, rfl⟩
theorem witness_NothingHappensWithoutSupply :
    ({ up with life := { up.life with off := true } } : State).life.off = true ∧ Instr.unpowered .rideThrough = false := by
  decide +kernel

theorem witness_RegisterAccesses :
    State.reset.serves .jtag (Reg.CHIP_SCRATCH0 + 4 * 3) ∧ up.serves (.ranger 3) Reg.CHIP_SCRATCH0 ∧
    up.serves .scaler Reg.CHIP_ID ∧ up.serves (.tile 143) Reg.TIME_NOW_LO ∧ up.serves .jtag Reg.CHIP_CTRL ∧
    up.votes = [] ∧ up.voteFirst = none ∧ up.life.off = false ∧ up.railsUp = true ∧ (31 : Fin 32) ≠ 0 ∧
    0x7FFFFC % 4 = 0 ∧ locate 0x7FFFFC = none ∧ Agent.coreId .jtag = none := by
  unfold State.serves; decide +kernel

/-- The tray at LIFE.STATE `x`; the chip at position 1. -/
def inLife (x : Nat) : State := up.wr Reg.CLK_LIFE (BitVec.ofNat 32 x)
def atPos1 (x : Nat) : State := (inLife x).wr Reg.CHIP_POS 0x201

theorem witness_ResetsAndWatchdogs :
    ({ up with life := { up.life with off := true } } : State).life.off = true ∧ up.life.off = false ∧ up.pos = 0 ∧
    up.pinIs 22 1 = true ∧ (up.wr (Reg.PINS_CFG 22) 0).pinIs 22 1 = false ∧ (up.wr Reg.CLK_WDOG 0x00640001).torn Reg.CLK_WDOG = false ∧
    (up.tile 143).regQ = [] ∧ (State.reset.lf = lfBoot ∧ State.reset.life.failed = false) ∧
    (up.serves .jtag Reg.CLK_WDOG ∧ up.bit Reg.CLK_WDOG 0 = false ∧ 100 ≤ fld (0x00640000 : Word) 31 16) ∧
    ((up.wr Reg.CLK_WDOG 0x00640001).serves (.ranger 0) Reg.CLK_WDOG_KICK ∧
      (up.wr Reg.CLK_WDOG 0x00640001).bit Reg.CLK_WDOG 0 = true ∧ fld (0x0D06 : Word) 15 0 = 0x0D06 ∧
      fld (0x0D07 : Word) 15 0 ≠ 0x0D06) ∧
    up.serves .jtag Reg.CLK_SWDOG ∧ up.serves .jtag Reg.CLK_SRST ∧ up.serves .jtag (Reg.CLK_TRST (143 / 32)) := by
  unfold State.serves; decide +kernel

theorem witness_ReferencesEnvelopeAndSupply :
    up.life.off = false ∧ up.pinIs 22 1 = true ∧ up.votes = [] ∧ up.life.refLost = false ∧ (99900#32).toNat = 99900 ∧ (100101#32).toNat = 100101 ∧
    ({ up with life := { up.life with refLost := true } } : State).life.refLost = true ∧ up.qstate 3 = 0 ∧
    ({ up with life := { up.life with sscWait := 16 } } : State).life.sscWait = BitVec.ofNat 5 (2 ^ 4) ∧
    (atPos1 1).pos ≠ 0 ∧ (up.pos = 0 ∧ up.lf = lfRun ∧ up.pinIs 23 1 = true ∧ 1120 < (1121#12).toInt ∧ (1600#12).toInt ≤ 1600 ∧
      (-640 : Int) ≤ (BitVec.ofInt 12 (-640)).toInt) ∧
    ((inLife lfRetaining).wakeHolds 0 = true ∧ (inLife lfRetaining).lf = lfRetaining ∧ (inLife lfRetaining).life.wake = none) ∧
    ((atPos1 lfRetained).wakeHolds 1 = true ∧ (atPos1 lfRetained).lf = lfRetained ∧ (atPos1 lfRetained).pos ≠ 0) ∧
    ((atPos1 lfInputLoss).lf = lfInputLoss ∧ (atPos1 lfInputLoss).pos ≠ 0 ∧ (atPos1 lfInputLoss).life.streams = [] ∧ (atPos1 lfInputLoss).life.pse = false ∧
      (atPos1 lfInputLoss).bit (Reg.MAC_CTRL 0) 0 = false) ∧
    ((atPos1 lfRetaining).lf = lfRetaining ∧ (atPos1 lfRetaining).bit Reg.CLK_RAIL 0 = true) := by
  decide +kernel

/-- Tile 143's task in a state, with an exit code. -/
def tasked (k : TaskState) (e : Option (BitVec 12)) : State :=
  up.modTile 143 fun t => { t with exit := e, core := { t.core with task := k } }

/-- A core that waits for the 8 bytes of a load, which its transaction has. -/
def loading : State :=
  ((waiting (.resp 5 0 (.scalar 3 8 false))).setTxn 5
    { agent := 143, addr := 0, op := .read 8, origin := .load, st := .answered (.data (List.replicate 8 1) false false) })

theorem witness_TaskControl :
    (∀ k, k ∈ [TaskState.idle, .halted, .stopped] → (tasked k none).serves .jtag (Reg.TILE 143 Reg.TILE_TASK_CTRL) ∧
      (tasked k none).gated 143 = false ∧ (tasked k none).cap.hold = false ∧ ((tasked k none).core (.tile 143)).task = k) ∧
    ((tileUp 143).serves (.ranger 3) (Reg.TILE 143 Reg.TILE_TASK_CTRL) ∧ (tileUp 143).ready (.tile 143)) ∧
    ((tasked .draining (some 0xFFF)).life.off = false ∧ (tasked .draining (some 0xFFF)).drained 143 = true ∧
      ((tasked .draining (some 0xFFF)).notices.get [] ((tasked .draining (some 0xFFF)).tile 143).notify.toNat).length < 512 ∧
      ((tasked .draining (some 0xFFF)).tile 143).exit = some 0xFFF) ∧
    ((tasked .draining none).drained 143 = true ∧ ((tasked .draining none).tile 143).exit = none) ∧
    deferredCodes.contains (0x12 : BitVec 6).toNat = true ∧
    (let y := loading.core (.tile 143)
     loading.life.off = false ∧ y.deferred = [] ∧ y.stopReq = false ∧ y.step = false ∧ loading.closeNotes = [] ∧
     y.wait = .resp 5 0 (.scalar 3 8 false) ∧
     ∃ r : Txn, loading.txn 5 = some r ∧ r.orphan = false ∧ r.freed = false ∧ r.origin = .load ∧ coreOf r.agent = some (.tile 143) ∧
       r.st = .answered (.data (List.replicate 8 1) false false)) := by
  refine ⟨by unfold State.serves; decide +kernel, ⟨by unfold State.serves; decide +kernel, ready_tile⟩, by decide +kernel,
    by decide +kernel, by decide +kernel, by decide +kernel, by decide +kernel, by decide +kernel, by decide +kernel,
    by decide +kernel, by decide +kernel, _, rfl, ?_⟩
  decide +kernel

/-- A tile 143 whose banks 0, 1 and 2 belong to the Feeder, the Bucker and the Skidder, with operations at its engines. -/
def engine (f : Tile → Tile) : State := (up.wr (Reg.TILE 143 Reg.TILE_OWNER_MAP0) 0x11111432).modTile 143 f

/-- The one pass of an MRUN of macro 15, row-group 31, on 4-bit inputs at offset 0, into group 63. -/
def mrunRow : List Byte :=
  bytes64 [(0, 1, 2), (1, 1, 8), (2, 2, 0x8000), (4, 1, 8), (5, 1, 4), (8, 1, 31), (9, 1, 1), (10, 2, 1), (12, 1, 63)]
def passing : State :=
  (engine fun t => { t with loads := [{ seq := 0, addr := 0, kind := .mrun mrunRow, started := true }],
                            groups := t.groups.set {} 63 { isOpen := true, nelem := 16 } }).setRg 143 15 31
    { w := 8, nch := 16, group := 0, scales := some [] }

/-- An MLOAD of codebook slot 7 with entries of 12 bits at offset 0. -/
def tableRow : List Byte := bytes64 [(0, 1, 1), (1, 1, 7), (4, 1, 0x3C), (8, 8, (own 143 0).toNat)]

/-- An ACC.CLOSE of group 63 to the Chipper; a QOUT of 128 values to offsets 0x10000 and 0x10400; an ACC.STAT of one value. -/
def closeRow : List Byte := bytes64 [(0, 1, 4), (1, 1, 63), (2, 1, 32), (4, 2, 16)]
def qoutRow : List Byte :=
  bytes64 [(0, 1, 6), (2, 1, 4), (6, 2, 128), (8, 4, 1), (24, 8, up.spAddr 143 0x10000), (32, 8, up.spAddr 143 0x10400)]
def statRow : List Byte := bytes64 [(0, 1, 5), (1, 1, 1), (2, 2, 1), (4, 4, 1), (8, 4, 0x10000), (12, 4, 0x10040)]

def closing : State := engine fun t =>
  { t with bucker := [{ seq := 3, addr := 0, kind := .close closeRow qoutRow }],
           chipper := [{ seq := 3, addr := 0, desc := qoutRow, fromClose := true }],
           groups := t.groups.set {} 63 { isOpen := true, nelem := 16 } }

/-- A tile with no engine operation at work but these. -/
def alone (s : State) : Prop := s.life.off = false ∧ s.bit (Reg.TILE 143 Reg.PEND) 2 = false ∧ (s.tile 143).feeder = [] ∧
  (s.tile 143).handovers = []

theorem groupSums_zero (x wts : List Int) (k : Nat) (h : ∀ i, wts.getD i 0 = 0) :
    groupSums x wts k = List.replicate (128 / k) 0 := by
  simp only [groupSums, h, Int.mul_zero, Int.add_zero]
  rw [List.eq_replicate_iff]
  refine ⟨by simp, fun b hb => ?_⟩
  obtain ⟨g, -, rfl⟩ := List.mem_map.1 hb
  generalize List.range k = l
  induction l with
  | nil => rfl
  | cons a l ih => exact ih

/-- A pass over rows of zeros passes its check. -/
theorem runPass_zero_ok (s : State) (n m rg w g : Nat) (x : List Int) (h : ∀ r, s.rowBits n m r = 0) :
    (s.runPass n m rg w g x none).ok = true := by
  have hz : ∀ (lo w : Nat), colInt 0#144 lo w = 0 := by intro lo w; simp [colInt, sInt]
  have hm : ∀ (lo w : Nat), groupSums x (((List.range 128).map fun i => s.rowBits n m (128 * rg + i)).map fun b => colInt b lo w)
      (groupSize g) = List.replicate (128 / groupSize g) 0 := fun lo w => groupSums_zero _ _ _ fun i => by
    simp only [h, List.map_map, List.getD_eq_getElem?_getD, List.getElem?_map]
    cases (List.range 128)[i]? <;> simp [hz]
  have hi : ∀ k, List.mapIdx (fun (_ : Nat) (v : Int) => v + 0) (List.replicate k 0) = List.replicate k 0 := by
    intro k; apply List.ext_getElem <;> simp
  simp only [State.runPass, weightOf, hm, hi, beq_iff_eq]
  rw [List.eq_replicate_iff]
  refine ⟨by simp, fun b hb => ?_⟩
  obtain ⟨j, -, rfl⟩ := List.mem_map.1 hb
  generalize chans w = c
  have : ∀ (l : List Nat) (a : Int), a = 0 → (l.map fun _ => List.replicate (128 / groupSize g) (0 : Int)).foldl
      (fun (a : Int) l => a + l.getD j 0) a = 0 := by
    intro l
    induction l with
    | nil => exact fun a h => h
    | cons x l ih => intro a ha; exact ih _ (by simp [ha, List.getD_eq_getElem?_getD, List.getElem?_replicate]; split <;> simp)
  exact this _ _ rfl

theorem witness_EngineOperationsEnd :
    (let s := passing
     let d := mrunRow
     let rc := s.rg 143 15 (leAt d 8 1)
     (alone s ∧ (s.tile 143).bucker = [] ∧ (s.tile 143).chipper = [] ∧ mrunMacros d = [15] ∧ leAt d 9 1 = 1 ∧
       leAt d 10 2 = 1 ∧ mrunSlot d = none ∧ rc.w ≠ 0 ∧ rc.w = leAt d 4 1 % 16 ∧ rc.group = leAt d 7 1 % 4 ∧ 0 < rc.nch ∧
       leAt d 40 4 + rc.nch ≤ ((s.tile 143).groups.get {} 63).nelem ∧ rc.scales ≠ none ∧
       s.healthOf 143 15 (leAt d 8 1) = rgGood ∧ (leAt d 1 1).testBit 3 = true ∧ s.portReach 143 oFeed 0 (inputBytes d)) ∧
       (s.runPass 143 15 (leAt d 8 1) rc.w rc.group (expandInputs d {} (s.portBytes 143 0 (inputBytes d))) none).ok = true) ∧
    (let s := engine fun t => { t with loads := [{ seq := 0, addr := 0, kind := .mload tableRow }] }
     let w := leAt tableRow 4 1 % 16
     alone s ∧ leAt tableRow 4 1 / 16 = modeTable ∧ leAt tableRow 1 1 % 16 = 7 ∧
       leAt tableRow 8 8 % 2 ^ 40 = 0x1000000000 + 143 * 2 ^ 20 + 0 ∧ s.portReach 143 oFeed 0 32 ∧
       ∀ i, i < 16 → -(2 ^ (w - 1) : Nat) ≤ (BitVec.ofNat 16 (leAt (s.portBytes 143 0 32) (2 * i) 2)).toInt ∧
         (BitVec.ofNat 16 (leAt (s.portBytes 143 0 32) (2 * i) 2)).toInt < (2 ^ (w - 1) : Nat)) ∧
    (let t := closing.tile 143
     let g := t.groups.get {} 63
     alone closing ∧ t.loads = [] ∧ leAt closeRow 1 1 = 63 ∧ leAt closeRow 2 1 % 4 = 0 ∧ leAt closeRow 2 1 / 16 % 4 = 2 ∧
       leAt closeRow 4 2 = g.nelem ∧ 0 < g.nelem ∧ g.isOpen = true ∧
       ∀ e, e < g.nelem → t.passIdx.get 0 (63 * 16384 + e) = 0 ∧ t.epoison.get none (63 * 16384 + e) = none ∧
         nonFinite (t.words.get 0 (g.word e)) = false) ∧
    (let s := engine fun t =>
       { t with chipper := [{ seq := 0, addr := 0, desc := qoutRow, values := some ((List.replicate 128 0).map fun x => (x, none)) }] }
     let q := quantRow (.int 4 (leAt qoutRow 2 1 / 32 % 4 == 0)) qoutRow [] (List.replicate 128 0)
     alone s ∧ leAt qoutRow 2 1 / 32 % 4 < 2 ∧ leAt qoutRow 2 1 % 32 = 4 ∧ leAt qoutRow 6 2 = 128 ∧ leAt qoutRow 8 4 = 1 ∧
       leAt qoutRow 5 1 % 4 = 0 ∧ (leAt qoutRow 4 1).testBit 2 = false ∧ s.chipId < 256 ∧
       leAt qoutRow 24 8 = s.spAddr 143 0x10000 ∧ leAt qoutRow 32 8 = s.spAddr 143 0x10400 ∧
       s.portReach 143 oBuck 0x10000 q.1.length ∧ s.portReach 143 oBuck 0x10400 q.2.1.length ∧
       s.spWord 143 0x10000 ≠ s.spWord 143 0x10400) ∧
    (let s := engine fun t => { t with bucker := [{ seq := 0, addr := 0, kind := .stat statRow }] }
     alone s ∧ (leAt statRow 1 1).testBit 0 = true ∧ (leAt statRow 1 1).testBit 1 = false ∧ leAt statRow 4 4 = 1 ∧
       leAt statRow 8 4 % 2 ^ 20 = 0x10000 ∧ leAt statRow 12 4 % 2 ^ 20 = 0x10040 ∧
       s.portReach 143 oBuck 0x10000 (4 * leAt statRow 2 2) ∧ s.portReach 143 oBuck 0x10040 16) ∧
    (let s : State := { (engine fun t => { t with loads := [{ seq := 0, addr := 0, kind := .mscrub 15 31 }] }) with
       mflip := SMap.set 0 [] (rowKey 143 15 (128 * 31 + 127)) (BitVec.ofNat 153 (2 ^ 152)) }
     alone s ∧ ∀ i : Fin 128, s.mflip.get 0 (rowKey 143 15 (128 * 31 + i)) =
       if i = 127 then BitVec.ofNat 153 (2 ^ 152) else 0) := by
  unfold alone State.portReach State.mapWhole
  refine ⟨⟨?_, runPass_zero_ok _ _ _ _ _ _ _ fun r => ?_⟩, ?_, ?_, ?_, ?_, ?_⟩
  case refine_2 =>
    have hm : passing.mrow = [] := by decide +kernel
    have hf : passing.mflip = [] := by decide +kernel
    simp [State.rowBits, hm, hf, SMap.get]
  all_goals ((try dsimp only); decide +kernel)

/-- A chip whose transaction 7 is `r`. -/
def withTxn (s : State) (r : Txn) : State := s.setTxn 7 r

/-- The transaction arrives at local address `la`. -/
def sentTo (s : State) (r : Txn) (la : Nat) : Prop :=
  s.life.off = false ∧ s.txn 7 = some r ∧ r.st = .sent ∧ r.orphan = false ∧ s.localAddr r.addr = some la ∧
    s.olderFirst r = false

def rdTxn (la : Nat) (op : TOp) : Txn := { agent := 5, origin := .load, addr := 255 * 2 ^ 40 + la, op := op }

/-- Both HBM controllers ready. -/
def hbmUp : State :=
  (((up.setHstat 0 1 true).setHstat 1 1 true).setCtl 0 { phase := 4 }).setCtl 1 { phase := 4 }

theorem witness_TransactionsServedAndReleased :
    (let la := 0x1000000000 + 143 * 2 ^ 20 + 0xFFFC0
     let r := rdTxn la (.read 64)
     let s := withTxn up r
     sentTo s r la ∧ s.portReach 143 oSeq 0xFFFC0 64 ∧ s.reachable 143 = true ∧ s.initBusy 143 = false ∧
       s.handoverHolds 143 (s.spWord 143 0xFFFC0) oSeq = false ∧ (s.tile 143).gb = []) ∧
    (let la := 0x1400000000 + 143 * 2 ^ 20 + 15 * 2 ^ 16 + 0xFFF8
     sentTo (withTxn up (rdTxn la (.read 8))) (rdTxn la (.read 8)) la ∧ up.reachable 143 = true ∧
       up.mflip.get 0 (rowKey 143 15 (0xFFF8 / 16)) = 0 ∧
       (let r := rdTxn la (.write [(0, List.replicate 8 1)])
        let s := (withTxn up r).setRg 143 15 31 { w := 8, nch := 16 }
        sentTo s r la ∧ s.reachable 143 = true ∧ (s.rg 143 15 (0xFFF8 / 2048)).w ≠ 0)) ∧
    (let la := hbmSize - 64
     let s := withTxn hbmUp (rdTxn la (.read 64))
     sentTo s (rdTxn la (.read 64)) la ∧ la < hbmSize ∧ s.life.refLost = false ∧ la % 64 = 0 ∧
       s.hbmReady (s.hbmStack la) = true ∧ s.hbmMark.get {} (hbmWordKey (s.hbmKey la)) = {} ∧
       (rdTxn la (.read 64)).node < 256 ∧
       sentTo (withTxn hbmUp (rdTxn la (.write [(0, List.replicate 64 1)]))) (rdTxn la (.write [(0, List.replicate 64 1)])) la) ∧
    (let r : Txn := { rdTxn 0 (.write [(0, [1])]) with origin := .store, st := .answered .ack }
     (withTxn up r).closeNotes = [] ∧ (withTxn up r).txn 7 = some r ∧ up.txn 7 = none ∧
       r.out = false ∧ r.poison = false ∧ r.freed = false ∧
       (withTxn up { r with freed := true }).txn 7 = some { r with freed := true } ∧
       (∀ st, st ∈ [TxnState.sent, .lost] → (withTxn up { r with orphan := true, st := st }).txn 7 =
         some { r with orphan := true, st := st } ∧ st ≠ .held ∧ r.noticed = false) ∧
       (withTxn up { r with st := .held }).txn 7 = some { r with st := .held } ∧
       (withTxn up { r with noticed := true }).txn 7 = some { r with noticed := true }) ∧
    (up.serves .jtag (Reg.CHOKER_QUOTA 143) ∧
      (let rest := (((List.range 144).filter (· != 143)).map fun j => up.getF (Reg.CHOKER_QUOTA j) 16 0).sum
       rest + fld (0 : Word) 16 0 + 2048 ≤ 131072 ∧ 131072 < rest + fld (0x1FFFF : Word) 16 0 + 2048)) := by
  unfold sentTo State.portReach State.mapWhole State.serves
  refine ⟨?_, ?_, ?_, ?_, ?_⟩ <;> dsimp only <;> decide +kernel

/-- A FILL of 64 bytes at offset 0x20000 at the head of queue 7, whose ring lies in bank 2. -/
def fillRow : List Byte :=
  bytes64 [(0, 1, 0x10), (1, 1, 1), (10, 6, up.spAddr 143 0x20000), (22, 2, 1), (24, 4, 64), (56, 4, 0xABCD), (60, 2, 1)]
def headed : State :=
  (((engine id).wr (Reg.TILE 143 (Reg.TILE_SKQ_CFG 7)) 0x11).wr (Reg.TILE 143 (Reg.TILE_SKQ_BASE 7)) 0x2FF80).wr
    (Reg.TILE 143 (Reg.TILE_SKQ_POST 7)) 1
def started (c : Nat) : State := headed.modSkq 143 7 fun _ =>
  { started := some 0, desc := putLe fillRow 2 1 c, elem := 1, tagged := true }
def halted7 : State := headed.modSkq 143 7 fun _ => { halted := true }

theorem witness_DmaDescriptors :
    (let s := headed.putWord 143 (headed.spWord 143 0x2FF80) fillRow
     s.life.off = false ∧ (s.core (.tile 143)).wait = .none ∧ s.skEntry 143 7 (s.skDone 143 7) = 0x2FF80 ∧
       s.reachable 143 = true ∧ s.skEn 143 7 = true ∧ s.skq 143 7 = {} ∧ s.skUsed 143 7 ≠ 0 ∧ (s.tile 143).handovers = [] ∧
       s.portReach 143 oSkid 0x2FF80 64 ∧ s.portBytes 143 0x2FF80 64 = fillRow ∧ dmaOp fillRow = 1 ∧ dmaElems fillRow = 1 ∧
       dmaGate fillRow = false ∧ dmaSrcFe fillRow = false ∧ dmaDstFe fillRow = false ∧ dmaCompl fillRow = 0 ∧
       dmaDst fillRow 0 = s.spAddr 143 0x20000 ∧ s.chipId < 256 ∧ s.portReach 143 oSkid 0x20000 (dmaLen fillRow) ∧
       (let u := headed.modSkq 143 7 fun _ => { started := some 0, desc := fillRow }
        u.quadRuns 143 = true ∧ u.skq 143 7 = { started := some 0, desc := fillRow } ∧
          ∀ p : Fin 8, p ≠ 7 → (u.skq 143 p).started = none)) ∧
    (∀ p : Fin 8, p ≠ 7 → ((started 0).skq 143 p).started = none) ∧
    (∀ c, c < 4 → let k := (started c).skq 143 7
      k.started ≠ none ∧ k.halted = false ∧ k.wait = none ∧ k.retry = false ∧ dmaGate k.desc = false ∧
        dmaElems k.desc ≤ k.elem ∧ k.tagged = true ∧ dmaCompl k.desc = c ∧ leAt k.desc 60 2 ≠ 0) ∧
    ((started 0).core (.tile 143)).task = .idle ∧
    (halted7.serves (.ranger 3) (Reg.TILE 143 Reg.TILE_SKQ_CTRL) ∧ (halted7.skq 143 7).halted = true) := by
  unfold State.serves State.portReach State.mapWhole
  refine ⟨?_, ?_, ?_, ?_, ?_⟩ <;> (try dsimp only) <;> decide +kernel

/-- The chip with stack 1's controller in a phase. -/
def stack1 (c : HbmCtl) : State := up.setCtl 1 c

theorem witness_HbmControllers :
    up.life.off = false ∧ ((stack1 { phase := 1 }).ctl 1).phase = 1 ∧
    (((stack1 { phase := 2 }).ctl 1).phase = 2 ∧
      ((stack1 { phase := 2 }).wr (Reg.HBM 1 Reg.HBM_RATE) 2).getF (Reg.HBM 1 Reg.HBM_RATE) 1 0 = (2 : BitVec 2).toNat ∧
      (stack1 { phase := 2 }).hstat 0 0 = false ∧ ((stack1 { phase := 2 }).setHstat 0 0 true).hstat 0 0 = true ∧
      (stack1 { phase := 2 }).lf ≠ lfBoot ∧ State.reset.lf = lfBoot) ∧
    (((stack1 { phase := 3 }).ctl 1).phase = 3 ∧ (stack1 { phase := 3 }).bit (Reg.HBM 1 Reg.HBM_CTRL) 4 = false ∧
      (stack1 { phase := 3 }).hstat 1 2 = false) ∧
    (hbmUp.serves .jtag (Reg.HBM 1 Reg.HBM_CTRL) ∧ hbmUp.hbmIdle 1 = true ∧ (hbmUp.ctl 1).phase = 4 ∧ (hbmUp.ctl 1).seq = none ∧
      fld (0 : Word) 1 0 = hbmUp.getF (Reg.HBM 1 Reg.HBM_CTRL) 1 0 ∧ hbmUp.hstat 1 2 = false ∧
      (hbmUp.setHstat 1 2 true).hstat 1 2 = true ∧ (hbmUp.setHstat 1 2 true).hbmIdle 1 = true) ∧
    (((stack1 { phase := 4, seq := some true }).ctl 1).seq = some true ∧
      ((stack1 { phase := 4 }).setBit (Reg.HBM 1 Reg.HBM_CTRL) 4 true).bit (Reg.HBM 1 Reg.HBM_CTRL) 4 = true ∧
      ((stack1 { phase := 4, seq := some false }).ctl 1).seq = some false) ∧
    (let s : State := { hbmUp.setBit (Reg.HBM 1 Reg.HBM_CTRL) 8 true with
       hbmMark := SMap.set {} [] (hbmWordKey (hbmUp.hbmKey (hbmUp.hbmEncode 32 0))) { ones := 1 } }
     let a := s.hbmEncode (32 * 1 + (s.ctl 1).patrolPtr % 32) ((s.ctl 1).patrolPtr / 32 * 64)
     let w := hbmWordKey (s.hbmKey a)
     s.bit (Reg.HBM 1 Reg.HBM_CTRL) 8 = true ∧ s.hbmReady 1 = true ∧ (s.ctl 1).rfm = 0 ∧ s.hbmStack a = 1 ∧
       (s.hbmMark.get {} w).ue = false ∧ (s.hbmMark.get {} w).poison = false ∧ (s.hbmMark.get {} w).ones ≠ 0) ∧
    1000 < ((stack1 { phase := 4, hourCe := 1001 }).ctl 1).hourCe := by
  unfold State.serves; dsimp only; decide +kernel

/-- A handover of bank 15 to the Bucker. -/
def handWord : Word := BitVec.ofNat 32 (0x38000)
def handing : State := up.modTile 143 fun t => { t with handovers := [{ word := handWord, started := true }] }
def gbOne : State := up.modTile 143 fun t =>
  { t with gb := [{ word := 16383, data := List.replicate 64 7, valid := 0xFF, dirty := 0xFF }] }

theorem witness_ScratchpadManagement :
    (let e : GbEntry := { word := 16383, data := List.replicate 64 7, valid := 0xFF, dirty := 0xFF }
     gbOne.life.off = false ∧ (gbOne.tile 143).gb[0]? = some e ∧ gbFind (gbOne.tile 143).gb e.word = some e ∧
       e.data.length = 64 ∧ gbOne.wmark 143 e.word = {}) ∧
    (up.serves (.tile 143) (Reg.TILE 143 Reg.TILE_OWNER) ∧ up.gated 143 = false ∧ (up.tile 143).handovers = [] ∧
      ownMask handWord ≠ 0 ∧ ownNew handWord < 6 ∧ up.cacheLegal 143 (ownMask handWord) (ownNew handWord) = true) ∧
    ((handing.tile 143).handovers = [{ word := handWord, started := true }] ∧
      handing.handoverDrained 143 { word := handWord, started := true } = true ∧ ownNew handWord < 5 ∧
      (∀ b, b < 16 → handing.owner 143 b ≠ oCache) ∧ (handing.tile 143).gb = [] ∧ (handing.tile 143).waiters = [] ∧
      (handing.tile 143).feeder = [] ∧ (handing.tile 143).loads = [] ∧ (handing.tile 143).bucker = [] ∧
      (handing.tile 143).chipper = [] ∧ (handing.tile 143).regQ = [] ∧ handing.heldReqs = []) ∧
    (∀ i : Fin 4, up.serves .jtag (Reg.TILE 143 (Reg.TILE_STRIPE i)) ∧ up.tileIdle 143 = true ∧
      2 ^ fld (0xC0 : Word) 6 4 ≤ 16 ∧ fld (0xC0 : Word) 3 0 % 16 = 0 ∧ 16 < 2 ^ fld (0xD0 : Word) 6 4 ∧
      fld (0x91 : Word) 3 0 % 2 ≠ 0) ∧
    (striped.stripe 143 3 = some (8, 8) ∧ fld (0xBC : Word) 3 0 < 8 + 8 ∧ 8 < fld (0xBC : Word) 3 0 + 2 ^ fld (0xBC : Word) 6 4) ∧
    up.serves (.tile 143) (Reg.TILE 143 Reg.TILE_CACHE_CTRL) ∧
    ((up.modTile 143 fun t => { t with maint := (false, true) }).tile 143).maint = (false, true) ∧
    (let s := ((up.setBit (Reg.TILE 143 Reg.TILE_SCRUB_CFG) 16 true).modTile 143 fun t => { t with scrubPtr := 16383 }).setMark 143
       16383 { ones := 0x80 }
     s.bit (Reg.TILE 143 Reg.TILE_SCRUB_CFG) 16 = true ∧ s.reachable 143 = true ∧ s.initBusy 143 = false ∧
       s.scrubWord 143 (s.tile 143).scrubPtr = some 16383 ∧ s.wmark 143 16383 = { ones := BitVec.ofNat 8 (2 ^ 7) }) ∧
    ((up.setInit 143 true).initBusy 143 = true ∧ up.heldReqs = []) ∧
    (up.serves .jtag (Reg.TILE 143 Reg.TILE_EV_HI) ∧ up.serves .jtag (Reg.TILE 143 Reg.TILE_EV_LO) ∧
      up.serves .jtag (Reg.TILE 143 Reg.TILE_EVCLR_HI) ∧ up.serves .jtag (Reg.TILE 143 Reg.TILE_EVCLR_LO) ∧
      (up.core (.tile 143)).wait = .none) ∧
    (let s := up.wr (Reg.TILE 143 Reg.TILE_DBG_SEL) 31
     s.serves .jtag (Reg.TILE 143 Reg.TILE_DBG_HI) ∧ s.serves .jtag (Reg.TILE 143 Reg.TILE_DBG_LO) ∧
       s.tileIdle 143 = true ∧ s.getF (Reg.TILE 143 Reg.TILE_DBG_SEL) 6 0 = (31 : BitVec 5).toNat) := by
  unfold State.serves
  refine ⟨?_, ?_, ?_, ?_, ?_, ?_, ?_, ?_, ?_, ?_, ?_⟩ <;> (try dsimp only) <;> decide +kernel

/-- A partner's HELLO: chip 4 at position 1 of tray 1, its link 7. -/
def partner : HelloWord :=
  { magic := 0x31445259, version := 1, chip := 1, position := 0x50, link := 7, rate := 0, features := 3, credReq := 1024,
    credRsp := 1024, credBulk := 2048, credCtrl := 128, retry := 128, uid := 9, stamp := 1, echo := 0, hold := 0 }

/-- Link 5 in a state, with what it holds. -/
def linked (st : Nat) (l : Link := { partner := some partner }) : State :=
  (up.setF (Reg.YARDER 5 Reg.YARDER_STAT) 2 0 st).setLink 5 l

/-- Window 255 open over the scratchpad of tile 143 for chip 1, with its CTRL word. -/
def windowed (st ctrl : Nat) : State :=
  (((((linked lkUp).wr (Reg.YFAB_WIN 255 0) (BitVec.ofNat 32 (0x1000000000 + 143 * 2 ^ 20))).wr (Reg.YFAB_WIN 255 4) 0x10).wr
    (Reg.YFAB_WIN 255 8) 0x3FFF).wr (Reg.YFAB_WIN 255 0x10) 2).wr (Reg.YFAB_WIN 255 0x18) (BitVec.ofNat 32 st) |>.wr
      (Reg.YFAB_WIN 255 0xC) (BitVec.ofNat 32 ctrl)

/-- A packet from chip 1 for the last word of tile 143's scratchpad. -/
def fromChip1 (dst : Byte := 0) : Packet :=
  { type := 1, vc := 0, nword := 0, src := 1, dst := dst, tag := 7, status := 0, hops := 0,
    addr := BitVec.ofNat 40 (0x1000000000 + 143 * 2 ^ 20 + 0xFFFC0), size := 0, poison := 0, data := [] }

theorem witness_RequestsFromOtherChips :
    let p := fromChip1
    let a := p.addr.toNat
    let s := windowed 1 3
    (s.yarderOn = true ∧ s.lstate 5 = lkUp ∧ p.dst.toNat = s.chipId ∧ a = 0x1000000000 + 143 * 2 ^ 20 + 0xFFFC0 ∧
      s.reachable 143 = true ∧ s.initBusy 143 = false ∧ s.handoverHolds 143 (s.spWord 143 0xFFFC0) oSeq = false ∧
      s.portReach 143 oSeq 0xFFFC0 64 ∧ (s.tile 143).gb = [] ∧ s.findWindow 1 a 64 .read = some 255 ∧
      s.findWindow 1 a 64 .write = some 255 ∧ s.findWindow 1 a 64 .fe = some 255) ∧
    (s.slotReach 143 0xFFFC0 ∧ s.tag 143 (s.spWord 143 0xFFFC0) = false ∧
      (s.setTag 143 16383 true).tag 143 (s.spWord 143 0xFFFC0) = true ∧
      s.handoverHolds 143 (s.spWord 143 0xFFFC0) (s.ownerOf 143 (s.spWord 143 0xFFFC0)) = false) ∧
    (s.findWindow 1 (a - 960) (64 * 16) .write = some 255 ∧ ∀ i, i < 16 → s.portReach 143 oSeq (0xFFC00 + 64 * i) 64 ∧
      s.handoverHolds 143 (s.spWord 143 (0xFFC00 + 64 * i)) oSeq = false ∧
      ∀ j, j < i → s.spWord 143 (0xFFC00 + 64 * j) ≠ s.spWord 143 (0xFFC00 + 64 * i)) := by
  unfold State.portReach State.mapWhole State.slotReach State.mapWhole
  refine ⟨?_, ?_, ?_⟩ <;> (try dsimp only) <;> decide +kernel

/-- A transaction of tile 143 at chip 1. -/
def farTxn (o : Origin) (op : TOp) : Txn :=
  { agent := 143, origin := o, addr := 2 ^ 40 + 0x1000000000 + 56, op := op, out := true }

/-- Link 5 up, tile 143 waiting, and transaction 7 of it at chip 1. -/
def farWait (w : Wait) (r : Txn) : State :=
  ((linked lkUp).modCore (.tile 143) fun x => { x with task := .running, wait := w }).setTxn 7 r

/-- What the statements ask of a transaction at another chip whose one response has still to come. -/
def awaits (s : State) (r : Txn) : Prop := s.localAddr r.addr = none ∧ r.out = true ∧ r.st = .sent ∧ r.freed = false ∧
  r.left ≤ 1 ∧ r.buf = [] ∧ r.pois = false ∧ r.bad = none

/-- A response from chip 1 with the TYPE and the data word. -/
def answerOf (type : Byte) : Packet := { fromChip1 0 with type := type, nword := 1, data := List.replicate 64 9 }

/-- A flit in the retry buffer of link 5, and tags 7 and 8 behind bulk ID 63. -/
def retrying : State :=
  ((linked lkUp { partner := some partner, retry := [{ seq := 254, payload := [], packets := [] }, { seq := 255, payload := [], packets := [] }],
                  bulk := SMap.set [] [] 63 [7, 8] }).setTxn 7 (farTxn .store (.write [(0, [1])]))).setTxn 8 (farTxn .store (.write [(0, [1])]))

theorem witness_ResponsesAndFlits :
    (let r := farTxn .load (.read 8)
     let s := farWait (.resp 7 0 (.scalar 3 8 false)) r
     let y := s.core (.tile 143)
     let p := answerOf 0x10
     s.yarderOn = true ∧ s.lstate 5 = lkUp ∧ p.dst.toNat = s.chipId ∧ p.tag.toNat % 2 ^ 17 = 7 ∧ s.closeNotes = [] ∧
       s.txn 7 = some r ∧ r.orphan = false ∧ r.origin = .load ∧ coreOf r.agent = some (.tile 143) ∧ awaits s r ∧ y.deferred = [] ∧
       y.stopReq = false ∧ y.step = false ∧ r.addr % 64 + 8 ≤ 64 ∧ r.op = .read 8 ∧ p.status = 0 ∧ p.poison.getLsbD 0 = false ∧
       p.data.length = 64 ∧ y.wait = .resp 7 0 (.scalar 3 8 false)) ∧
    (∀ sc : Bool,
     let r := farTxn .load (.feRead sc)
     let s := farWait (.fe 0 none (.slotV 31) (some 7) false 0) r
     let y := s.core (.tile 143)
     s.txn 7 = some r ∧ awaits s r ∧ y.wait = .fe 0 none (.slotV 31) (some 7) false 0 ∧ y.deferred = [] ∧ y.stopReq = false ∧
       y.step = false ∧ (answerOf 0x12).nword = 1) ∧
    (let r := farTxn .store (.write [(0, [1])])
     (farWait .none r).txn 7 = some r ∧ awaits (farWait .none r) r ∧ r.origin = .store) ∧
    ((retrying.link 5).txq = [] ∧ (retrying.link 5).bulk.get [] 63 = [7, 8] ∧ (∀ j, j ∈ [7, 8] →
        retrying.txn j = some (farTxn .store (.write [(0, [1])]))) ∧ awaits retrying (farTxn .store (.write [(0, [1])])) ∧
      (farTxn .store (.write [(0, [1])])).addr / 2 ^ 40 = (fromChip1 0).src.toNat ∧ [7, 8].Nodup ∧ retrying.closeNotes = [] ∧
      (let r := farTxn .store (.write [(0, [1])])
       r.addr % 2 ^ 40 ≤ 0x1000000038 ∧ 0x1000000038 < r.addr % 2 ^ 40 + r.op.span)) ∧
    ((fromChip1 9).dst.toNat ≠ (linked lkUp).chipId ∧ packetValid (fromChip1 9) = true ∧ (fromChip1 9).hops ≠ 3 ∧
      packetValid { fromChip1 9 with hops := 3 } = true) ∧
    (retrying.svc.budgets = [] ∧ ([] : List Byte).length ≠ 256 ∧
      (retrying.link 5).retry[1]? = some { seq := 255, payload := [], packets := [] } ∧
      (∀ j, j < 1 → ∀ g, (retrying.link 5).retry[j]? = some g → g.seq ≠ 255)) ∧
    ((linked lkUp).link 5).rxBuf = [] ∧ ((linked lkUp).link 5).rxSeq < 256 ∧ (fromChip1 0).data.length = 64 * (fromChip1 0).nword.toNat := by
  unfold awaits
  refine ⟨?_, ?_, ?_, ?_, ?_, ⟨?_, ?_, ?_, ?_⟩, ?_⟩
  case refine_9 =>
    intro j hj g hg
    obtain rfl : j = 0 := by omega
    have h : (retrying.link 5).retry[0]? = some { seq := 254, payload := [], packets := [] } := by decide +kernel
    rw [h] at hg
    cases hg; decide
  all_goals first | (dsimp only; decide +kernel) | decide +kernel

/-- The partner behind link 4 of the tests. -/
def partner4 : HelloWord := { partner with link := 63 }

/-- Link 4 FAILED or UP too, with what it holds. -/
def linked4 (st : Nat) (l : Link := { partner := some partner4 }) : State :=
  ((linked lkUp).setF (Reg.YARDER 4 Reg.YARDER_STAT) 2 0 st).setLink 4 l

theorem witness_LinksAndWindows :
    ((linked lkTraining {}).yarderOn = true ∧ (linked lkTraining {}).lstate 5 = lkTraining ∧ ((linked lkTraining {}).link 5).txq = [] ∧
      ((linked lkTraining {}).link 5).retry = [] ∧ ((linked lkTraining { slow := true, fails := 2 }).link 5).slow = true ∧
      ((linked lkTraining { fails := 2 }).link 5).fails = 2) ∧
    (let s := linked lkHandshake {}
     s.lstate 5 = lkHandshake ∧ s.helloFault 5 partner = none ∧ (s.link 5).acked = none ∧ (s.link 5).txq = [] ∧ (s.link 5).retry = [] ∧
       ((linked lkHandshake).link 5).partner = some partner ∧ s.helloFault 5 { partner with magic := 0 } = some 0) ∧
    ((linked lkUp).lstate 5 = lkUp ∧ ((linked lkUp).link 5).partner.isSome = true ∧
      (linked lkUp).group (((linked lkUp).partnerChip 5).getD 0) = [5]) ∧
    (let f : Failover := { since := 0, peer := partner4, retry := [], txq := [] }
     let s := linked4 lkFailed { lost := some f, retrain := true }
     s.lstate 5 = lkUp ∧ s.lstate 4 = lkFailed ∧ (s.link 4).lost = some f ∧ (s.link 4).retrain = true ∧ f.peer.chip = 1 ∧
       (∀ i, i < 64 → i ≠ 4 → (s.link i).lost = none) ∧ f.peer.link.toNat < 64) ∧
    (let s := linked4 lkUp
     s.serves .jtag (Reg.YARDER 5 Reg.YARDER_CTRL) ∧ s.bit (Reg.YARDER 5 Reg.YARDER_CTRL) 0 = true ∧ s.lstate 5 = lkUp ∧
       (s.link 5).partner.isSome = true ∧ 1 < (s.group ((s.partnerChip 5).getD 0)).length ∧ s.lstate 5 ≠ lkSleep ∧ s.slotOk = true) ∧
    ((windowed 0 0).serves .jtag (Reg.YFAB_WIN 255 0xC) ∧ (windowed 0 0).votes = [] ∧ (windowed 0 0).winState 255 = 0 ∧
      fld (8 : Word) 3 2 ≠ 3 ∧ inOneScratchpad ((windowed 0 0).winBase 255) (64 * (windowed 0 0).winLen 255) = true) ∧
    ((windowed 1 3).serves .jtag (Reg.YFAB_WIN 255 0xC) ∧ (windowed 1 3).votes = [] ∧ (windowed 1 3).winState 255 = 1 ∧
      fld (2 : Word) 3 2 = fld ((windowed 1 3).rd (Reg.YFAB_WIN 255 0xC)) 3 2) ∧
    (let s : State := { windowed 2 2 with winWait := SMap.set [] [] 255 [1] }
     s.winState 255 = 2 ∧ (1#8).toNat ∈ s.winWait.get [] 255 ∧ (s.winWait.get [] 255).Nodup ∧ s.winWait.get [] 255 ≠ [] ∧
       s.lstate 5 = lkUp ∧ s.closeNotes = []) ∧
    (let r := farTxn .store (.write [(0, [1])])
     let s := (linked lkUp).setTxn 7 r
     ((s.tagList.filter fun p => decide (p.2.addr / 2 ^ 40 = 1 ∧ 0x1000000000 < p.2.addr % 2 ^ 40 + p.2.op.span ∧
       p.2.addr % 2 ^ 40 < 0x1000000000 + 64 * (0 + 1))).map (·.1)) = [7]) := by
  unfold State.serves
  refine ⟨?_, ?_, ?_, ?_, ?_, ?_, ?_, ?_, ?_⟩ <;> (try dsimp only) <;> decide +kernel

theorem witness_whole_windows : (windowed 1 3).winsWhole ∧ (windowed 0 0).winsWhole :=
  ⟨winsWhole_none _ (by decide +kernel), winsWhole_none _ (by decide +kernel)⟩

/-- Write registers and bring those values into force. -/
def wra (s : State) (l : List (Nat × Nat)) : State := l.foldl (fun s p => (s.wr p.1 (BitVec.ofNat 32 p.2)).apply p.1) s

/-- An Ethernet frame of a UDP datagram from 10.0.0.1 port 5000 to port `d`, its UDP checksum zero. -/
def udpFrame (d : Nat) (u : List Byte) : List Byte :=
  let be := fun (n x : Nat) => (leBytes n x).reverse
  let hdr := fun (c : Nat) => be 1 0x45 ++ be 1 0 ++ be 2 (28 + u.length) ++ be 4 0 ++ be 1 64 ++ be 1 17 ++ be 2 c ++
    be 4 0x0A000001 ++ be 4 0x0A000002
  be 12 0 ++ be 2 0x0800 ++ hdr (0xFFFF - fold16 (sum16 (hdr 0))) ++ be 2 5000 ++ be 2 d ++ be 2 (8 + u.length) ++ be 2 0 ++ u

/-- A GVSP packet of block `b`: its format, its packet ID and its body. -/
def gvsp (b fmt id : Nat) (body : List Byte) : List Byte :=
  udpFrame 3956 ([0, 0] ++ (leBytes 2 b).reverse ++ leBytes 1 fmt ++ (leBytes 3 id).reverse ++ body)

/-- A leader's body: payload type 1, a timestamp and a pixel format. -/
def leaderBody : List Byte := [0, 0, 0, 1] ++ leBytes 8 0 ++ [1, 8, 0, 1]

/-- Stream 63 on MAC 3 in a state: 128-byte packets, two buffers at 1 MiB, its token slot the last word of tile 143. -/
def stream (st : Nat) (x : Strm := {}) : State :=
  let a := 0x1000000000 + 143 * 2 ^ 20 + 0xFFFC0
  let s := wra (hbmUp.wr (Reg.MAC_CTRL 3) 1) [(Reg.STR 63 0, 1 + 3 * 2 + 2 * 256 + 2 ^ 16), (Reg.STR 63 4, 0x0A000001),
    (Reg.STR 63 8, 3956), (Reg.STR 63 0xC, 128), (Reg.STR 63 0x14, 0x100000), (Reg.STR 63 0x1C, 1),
    (Reg.STR 63 0x20, a % 2 ^ 32), (Reg.STR 63 0x24, a / 2 ^ 32), (Reg.STR 63 0x28, 0xFFFF0000)]
  (s.wr (Reg.STR 63 0x30) (BitVec.ofNat 32 st)).setStrm 63 x

/-- A ring of 32 entries at 0x200000 whose entry 31, at its head, is owned and names a buffer at 0x300000. -/
def ringed (r : Nat → Nat) : State :=
  let s := (((hbmUp.wr (Reg.MAC_CTRL 4) 1).wr (r 0) 0x200000).wr (r 8) 5).wr (r 0xC) 31
  { s with hbm := s.hbm.setMany 0 (s.hbmKey (0x200000 + 31 * 32)) (leBytes 8 0x300000 ++ leBytes 2 64 ++ [1]) }

/-- Bytes of HBM that a request may write. -/
def cleanHbm (s : State) (a len : Nat) : Prop := a + len ≤ hbmSize ∧ ∀ j, j < len →
  s.hbmReady (s.hbmStack (a + j)) = true ∧ s.hbmMark.get {} (hbmWordKey (s.hbmKey (a + j))) = {}

/-- The frame of the tests in assembly: block 65535, with payload packet 1 if `one`. -/
def asmF (got : List Nat) : Machine.Frm :=
  { buf := 1, block := 65535, got := got.foldl (fun m i => SMap.set false m i true) [], highest := got.foldl max 0 }

theorem witness_LandingStreams :
    (let s := stream 1
     s.life.off = false ∧ s.life.refLost = false ∧ s.bit (Reg.MAC_CTRL 3) 0 = true ∧ s.bit (Reg.MAC_CTRL 5) 1 = false ∧
       (∀ i, i < 64 → s.bit (0x500000 + Reg.PEND + 4 * (i / 32)) (i % 32) = false) ∧ s.strState 63 = 1 ∧
       s.stageUsed + (gvsp 65535 1 0 leaderBody).length ≤ 2 ^ 23 ∧
       s.classify 3 (gvsp 65535 1 0 leaderBody) = .leader 63 65535 0x01080001 ∧
       (∀ r, r < 11 → s.inForce (Reg.STR 63 (4 * r)) = s.rd (Reg.STR 63 (4 * r))) ∧ (s.strm 63).asm = none ∧
       s.freeBuf 63 = some 0) ∧
    (let s := stream 2 { asm := some (asmF []) }
     let d := List.replicate 128 7
     s.strState 63 = 2 ∧ s.classify 3 (gvsp 65535 3 32 d) = .payload 63 0 65535 32 d ∧ d.length = s.strF 63 0xC 13 0 ∧
       32 * d.length ≤ s.strF 63 0x1C 19 0 * 4096 ∧ (asmF []).addr + 31 * 128 + 128 ≤ hbmSize ∧ s.ingest = [] ∧
       s.held 148 < 1024 ∧ s.stageUsed + (gvsp 65535 3 32 d).length ≤ 2 ^ 23 ∧
       ({ s with ingest := [⟨63, 1, 0, [7], none⟩] } : State).ingest ≠ [] ∧ (asmF []).short = none ∧ (asmF []).trailer = none) ∧
    (let s := stream 2 { asm := some (asmF [1, 2]) }
     s.classify 3 (gvsp 65535 2 3 []) = .trailer 63 65535 3 ∧ (∀ i, i < 3 → 1 ≤ i → (asmF [1, 2]).got.get false i = true)) ∧
    (let g := asmF [2]
     missing g (max g.highest (((stream 2).lastId 63 g).getD 0)) = true ∧ gapsOf g g.highest ≠ [] ∧
       g.requests < (stream 2).strF 63 0 11 8 ∧ (stream 2).strF 63 0 11 8 ≤ ({ g with requests := 2 } : Machine.Frm).requests) ∧
    (let s := stream 2 { ready := [asmF [1]] }
     s.bit (Reg.STR 63 0) 0 = true ∧ (s.strm 63).ready = asmF [1] :: [] ∧ s.staging 63 (asmF [1]).block = false ∧
       s.strF 63 0x20 31 6 * 64 + s.strF 63 0x24 7 0 * 2 ^ 32 = 0x1000000000 + 143 * 2 ^ 20 + 0xFFFC0 ∧ s.reachable 143 = true ∧
       s.slotReach 143 0xFFFC0 ∧ s.tag 143 (s.spWord 143 0xFFFC0) = false) ∧
    ((stream 2 { held := [(1, 0), (2, 1)] }).serves .jtag (Reg.STR 63 0x2C) ∧ (stream 2).serves .jtag (Reg.STR 63 0) ∧
      (stream 2).bit (Reg.STR 63 0) 0 = !(0 : Word).getLsbD 0 ∧ hbmUp.bit (Reg.STR 63 0) 0 = !(1 : Word).getLsbD 0) ∧
    ((stream 2).bit (Reg.MAC_STAT ((stream 2).strF 63 0 2 1)) 0 = false ∧ (stream 2).strF 63 0x28 31 16 ≠ 0 ∧
      BitVec.ofNat 32 (b2n ((1 : BitVec 2) != 0) + 2 * (1 : BitVec 2).toNat) ≠ up.rd (Reg.MAC_STAT 4)) ∧
    (let s := ringed (Reg.RXR 4)
     let e := s.ringEntry (Reg.RXR 4)
     let f := udpFrame 319 [0]
     cleanHbm s e 32 ∧ leAt (s.hbm.getMany 0 (s.hbmKey e) 32) 10 1 % 2 = 1 ∧ s.bit (Reg.MAC_CTRL 4) 0 = true ∧
       s.bit (Reg.MAC_CTRL 5) 1 = false ∧ s.classify 4 f = .notStream ∧ leAt (s.hbm.getMany 0 (s.hbmKey e) 32) 0 5 = 0x300000 ∧
       cleanHbm s 0x300000 f.length ∧ e + 32 ≤ 0x300000 ∧ isPtpEvent f = true) ∧
    (let s := ringed (Reg.TXR 4)
     let e := s.ringEntry (Reg.TXR 4)
     cleanHbm s e 32 ∧ leAt (s.hbm.getMany 0 (s.hbmKey e) 32) 10 1 % 2 = 1 ∧
       s.getF (Reg.TXR 4 0xC) 11 0 ≠ s.getF (Reg.TXR 4 0x10) 11 0 ∧ leAt (s.hbm.getMany 0 (s.hbmKey e) 32) 8 2 = 64 ∧
       cleanHbm s 0x300000 64) ∧
    (up.serves .jtag Reg.TIME_CTRL ∧ (up.wr Reg.TIME_ODO_CFG 0x300).bit Reg.TIME_ODO_CFG 9 = true ∧
      (up.wr Reg.TIME_ODO_CFG 0x300).pinIs 20 1 = true ∧ (up.wr Reg.TIME_ODO_CFG 0x300).pinIs 21 1 = true) := by
  unfold State.slotReach State.mapWhole State.serves cleanHbm
  refine ⟨?_, ?_, ?_, ?_, ?_, ?_, ?_, ?_, ?_, ?_⟩ <;> (try dsimp only) <;> decide +kernel

/-- SHA-256 of no bytes, as FIPS 180-4 gives it. -/
def shaEmpty : List Byte := (leBytes 32 0xe3b0c44298fc1c149afbf4c8996fb92427ae41e4649b934ca495991b7852b855).reverse

/-- FIPS 180-4's digests of no bytes and of "abc". -/
theorem test_sha256 : sha256 [] = shaEmpty ∧
    sha256 [0x61, 0x62, 0x63] =
      (leBytes 32 0xba7816bf8f01cfea414140de5dae2223b00361a396177a9cb410ff61f20015ad).reverse := by decide +kernel

/-- Chip 0 with its service in a state, and what the runtime holds. -/
def serving (st : Nat) (v : Svc := {}) : State := (up.setSv st).modSvc fun _ => v

/-- A placement image of 128 bytes, its header alone, in flash and in the directory. -/
def placed : State :=
  (((serving svIdle).flashPut 48 (leBytes 8 128)).flashPut 56 shaEmpty).flashPut plxBase
    (List.replicate 16 0 ++ leBytes 8 128 ++ List.replicate 8 0 ++ shaEmpty)

/-- An update session of kind 1 from address 9 with the image's digest, the image in flash. -/
def updating (ip : Option Nat) : State :=
  (serving svIdle { session := some { ip := ip, kind := 1, len := 64, digest := shaEmpty }, recSeq := some (0xFFFF, [6]) }).flashPut
    (imgBase 1 + 32) shaEmpty

theorem witness_ManagementRequests :
    (let s := serving svIdle
     s.life.off = false ∧ s.life.failed = false ∧ s.svState = svIdle ∧ s.lf = lfRun ∧ s.svc.replies = [] ∧ s.svc.session = none ∧
       (0 : Byte).toNat = s.chipId ∧ s.consoleOn = true ∧ s.regReason (.ranger 0) (Reg.STR 63 0x3C) 4 (Reg.STR 63 0x3C) = none ∧
       s.lf ≠ lfPowerdown ∧ s.pos = 0 ∧ s.serves (.ranger 0) (Reg.STR 63 0x3C) ∧ s.pinIs 22 1 = true ∧
       (s.wr (Reg.PINS_CFG 22) 0).pinIs 22 1 = false ∧ (s.wr Reg.CHIP_POS 0x10201).pos = 1 ∧
       (s.wr Reg.CHIP_POS 0x10201).chipId = 1) ∧
    (placed.startCheck true = none ∧ placed.svState = svIdle ∧ placed.lf = lfRun ∧ placed.svc.session = none) ∧
    ((serving svQuiesced).svState = svQuiesced ∧ (serving svQuiesced).svc.sameId = false ∧
      (serving svQuiesced { sameId := true }).svc.sameId = true ∧ (serving svRunning).svState ∈ [svRunning, svStarting] ∧
      (serving svRunning).consoleOn = true) ∧
    (let s := updating (some 9)
     s.svc.session = some { ip := some 9, kind := 1, len := 64, digest := shaEmpty } ∧
       s.imageDigest (imgBase 1) (imgHead 1) 64 = shaEmpty ∧ s.flashGet (imgBase 1 + 32) 32 = shaEmpty) := by
  unfold State.serves
  refine ⟨?_, ?_, ?_, ?_⟩ <;> decide +kernel

/-- Ring 3's head at a producer and a consumer index, and its first record of a kind. -/
def ringAt (p c kind : Nat) : State :=
  let s := serving svRunning
  let s := { hbmUp with svc := s.svc, regs := s.regs }
  let s := (s.setHstat 0 1 true).setHstat 1 1 true
  let s := { s with hbm := s.hbm.setMany 0 (s.hbmKey (ringBase 7)) (leBytes 8 p ++ leBytes 8 c) }
  { s with hbm := s.hbm.setMany 0 (s.hbmKey (ringBase 7 + 0x1000 + 128 * (c % 8192))) (List.replicate 5 0 ++ [BitVec.ofNat 8 kind]) }

/-- The rings' heads that show no record. -/
def stillRing (s : State) (r : Nat) : Prop :=
  leAt (s.hbm.getMany 0 (s.hbmKey (ringBase r)) 24) 0 8 = leAt (s.hbm.getMany 0 (s.hbmKey (ringBase r)) 24) 8 8 ∧
    leAt (s.hbm.getMany 0 (s.hbmKey (ringBase r)) 24) 16 8 ≤ s.svc.loss.get 0 r

/-- The boot ROM's recovery console, with a session. -/
def recovering (v : Svc) : State := (serving svRecovery v)

theorem witness_ServiceAndRecovery :
    (let s : State := { ringAt 0 0 0 with svc := { gaps := [Gap.mk true 63 1 5 6] } }
     s.life.off = false ∧ s.runtimeOn 1 = true ∧ s.pos = 0 ∧ (∀ i, i < 2 → s.hbmReady i = true) ∧ (∀ r, r < 8 → stillRing s r)) ∧
    (∀ w, hbmUp.hbmMark.get {} w = {}) ∧
    (let s := ringAt 0 0xFFFFFFFFFFFFFFFF 2
     (∀ i, i < 2 → s.hbmReady i = true) ∧ s.svc.gaps = [] ∧ (∀ j, j < 8 → j ≠ 7 → stillRing s j) ∧
       leAt (s.hbm.getMany 0 (s.hbmKey (ringBase 7)) 24) 0 8 =
         (leAt (s.hbm.getMany 0 (s.hbmKey (ringBase 7)) 24) 8 8 + 1) % 2 ^ 64 ∧
       leAt (s.hbm.getMany 0 (s.hbmKey (ringBase 7)) 24) 16 8 ≤ s.svc.loss.get 0 7 ∧
       leAt (s.hbm.getMany 0 (s.hbmKey (ringBase 7 + 0x1000 + 128 *
         (leAt (s.hbm.getMany 0 (s.hbmKey (ringBase 7)) 24) 8 8 % 8192))) 128) 5 1 = 2) ∧
    ((serving svRunning { waiting := [(1, [2])] }).svc.waiting = (1, [2]) :: []) ∧
    (let s := (serving svRunning { crews := [143] }).modCore (.tile 143) fun x => { x with task := .stopped }
     s.svc.crews.contains 143 = true ∧ (s.core (.tile 143)).task = .stopped ∧ s.svState = svRunning) ∧
    (let s := serving svQuiesced { restart := true }
     s.svc.restart = true ∧ s.svState = svQuiesced ∧ s.svc.sameId = false ∧ s.runtimeOn 1 = true) ∧
    (let s := serving svStopping { stopTo := svMaint }
     s.svState = svStopping ∧ s.svc.stopTo < 8) ∧
    ((serving svRecovery).recoveryOn = true ∧ (serving svRecovery).svc.session = none ∧ (serving svRecovery).svc.recSeq = none) ∧
    (let s := (updating none).setSv svRecovery
     let x : Session := { ip := none, kind := 1, len := 64, digest := shaEmpty }
     s.recoveryOn = true ∧ s.svc.session = some x ∧ s.svc.recSeq = some ((0xFFFF#16).toNat, [6]) ∧ (0 : BitVec 16) = 0xFFFF + 1 ∧
       x.at' + ([7] : List Byte).length ≤ x.len ∧ s.imageDigest (imgBase 1) (imgHead 1) 64 = shaEmpty ∧
       s.flashGet (imgBase 1 + 32) 32 = shaEmpty ∧ s.svc.recSeq ≠ none) := by
  unfold stillRing
  refine ⟨?_, fun w => ?_, ?_, ?_, ?_, ?_, ?_, ?_, ?_⟩
  case refine_2 => exact (rfl : SMap.get {} ([] : SMap WMark) w = {})
  all_goals ((try dsimp only); decide +kernel)

/-- The chip with a valid sensor of 25 °C in each quadrant, its fuses known, tile 143 to be gated. -/
def warm : State :=
  let s := [0, 3, 18, 35].foldl (fun s i => s.wr (Reg.THERM_SENS i) 0x1190) (up.wr (Reg.PWR_TGATE 4) 0x8000)
  { s with regs := s.regs.filter (fun p => p.1 < Reg.PWR_FUSE) ++ [(Reg.PWR_FUSE, 0xAFAA3C)] ++
                   s.regs.filter fun p => Reg.PWR_FUSE < p.1 }

/-- Quadrant 3 in a state, with its request and the rest of it. -/
def quadAt (st req : Nat) (x : Quad := {}) : State :=
  ((warm.setF (Reg.PWR_Q_STAT 3) 2 0 st).wr (Reg.PWR_Q_CTRL 3) (BitVec.ofNat 32 req)).modQuad 3 fun _ => x

theorem witness_PowerManagement :
    (warm.life.off = false ∧ (∀ q, q < 4 → warm.qstate q = 0 ∧ warm.band q = 0 ∧ warm.ceilTherm q = 15 ∧ warm.ceilCap q = 15) ∧
      warm.hottest 3 = some (35, 400) ∧ warm.bandOf 400 = 0) ∧
    (((warm.dom 7).rawN = 0) ∧ ((warm.setDom 7 { rawN := 5, rawSum := 9 }).dom 7).rawN ≠ 0) ∧
    ((warm.wr Reg.PWR_ALERT 1).alertOn = true) ∧
    (warm.life.shed = false ∧ (∀ k, k < 17 → warm.bit (0x020000 + Reg.PEND) k = false) ∧ warm.fixedOn = false ∧
      warm.alertOn = false ∧ warm.cap.hold = false ∧ warm.cap.ack = false ∧ warm.cap.slept = [] ∧ warm.getF Reg.PWR_CONS 11 8 = 0 ∧
      warm.rack.ackDue = [] ∧ warm.votes = [] ∧ 0 ≤ warm.capTotal ∧ warm.capTotal + warm.getF Reg.PWR_HEADROOM 5 0 * 25000 ≤ warm.capLimit) ∧
    (∀ k, k < 4 → ((quadAt 0 0 { change := some (k, 40, 170, 90) }).quad 3).change = some (k, 40, 170, 90)) ∧
    (warm.serves .jtag Reg.PWR_FIXED ∧ fld (0xBB1 : Word) 7 4 ≤ 11 ∧ fld (0xBB1 : Word) 11 8 ≤ fld (0xBB1 : Word) 7 4) ∧
    (warm.serves .jtag (Reg.PWR_OP 15) ∧ warm.pointOk 15 (warm.rd (Reg.PWR_OP 15)) = true ∧ warm.pointOk 15 0xFFFFFFFF = false) ∧
    (warm.serves .jtag Reg.PWR_CAP ∧ 40 ≤ fld (175 : Word) 7 0 ∧ fld (175 : Word) 7 0 ≤ min 175 (warm.getF Reg.PWR_FUSE 23 16) ∧
      floorSum (warm.rd Reg.PWR_FLOOR) ≤ fld (175 : Word) 7 0) ∧
    (warm.serves .jtag Reg.PWR_FLOOR ∧ floorSum 0x0A0A0A ≤ warm.getF Reg.PWR_CAP 7 0 ∧ ¬ fld (176 : Word) 7 0 ≤ 175) ∧
    (warm.serves .jtag Reg.PWR_PRIO ∧ (∀ c, c < 3 → c ∈ [fld (0x12 : Word) 1 0, fld (0x12 : Word) 3 2, fld (0x12 : Word) 5 4])) ∧
    (warm.gateable 143 = true ∧ warm.gateWanted 143 = true) ∧
    (let s := (warm.modTile 143 fun t => { t with waking := true }).setInit 143 true
     (s.tile 143).waking = true ∧ (s.tile 143).heldWrites = [] ∧ s.heldReqs = [] ∧ s.initBusy 143 = true) ∧
    (warm.serves .jtag (Reg.PWR_TWAKE 4) ∧ 32 * 4 + 15 < 144) ∧
    (warm.serves .jtag (Reg.PWR_Q_CTRL 3) ∧ fld (2 : Word) 1 0 = 2 ∧ warm.quadBusy 3 = false ∧ warm.qstate 3 = qRun) ∧
    (let s := quadAt qRetained 1
     fld (0 : Word) 1 0 = 0 ∧ s.qstate 3 ∈ [qRetained, qGated, qTripped] ∧ s.tripped 3 = false ∧ (∀ p, p < 4 → s.qstate p ≠ qWaking) ∧
       (∀ p, p < 3 → s.qstate p ≤ 1)) ∧
    (let s := quadAt qEntering 2
     s.qstate 3 = qEntering ∧ (∀ n, n ∈ quadTiles 3 → (s.tile n).handovers = []) ∧ s.quadReq 3 = 2) ∧
    ((quadAt qWaking 0).qstate 3 = qWaking ∧ (quadAt qWaking 0).heldReqs = []) ∧
    ((warm.quad 3).stretching = false ∧ warm.qstate 3 ≤ 1 ∧ ((quadAt 0 0 { stretching := true }).quad 3).stretching = true) ∧
    (warm.serves .jtag Reg.THERM_TRIP ∧ (warm.wr Reg.THERM_TRIP 8).tripped 3 = true) ∧
    ((warm.wr Reg.CHIP_POS 0x10201).chipId ≠ 0 ∧ (warm.wr Reg.CHIP_POS 0x10201).rack.loop = []) ∧
    (warm.sensor 35 ≠ none ∧ ∀ j, j ∈ quadSensors (sensorQuad 35) → j ≠ 35 → warm.sensor j = none) := by
  unfold State.serves
  refine ⟨?_, ?_, ?_, ?_, ?_, ?_, ?_, ?_, ?_, ?_, ?_, ?_, ?_, ?_, ?_, ?_, ?_, ?_, ?_, ?_, ?_⟩ <;> (try dsimp only) <;>
    decide +kernel

/-- Link 63 of chip 0 up, with what it knows of the rack. -/
def racked (r : Rack := {}) (pos : Nat := 0x200) : State :=
  { ((up.setF (Reg.YARDER 63 Reg.YARDER_STAT) 2 0 lkUp).wr Reg.CHIP_POS (BitVec.ofNat 32 pos)) with rack := r }

/-- A power packet for a chip: what it is, its flags, its chip ID, its number and its cap. -/
def powerMsg (dst : Byte) (flags c g cap : Nat) : Packet :=
  { fromChip1 dst with data := leBytes 1 1 ++ leBytes 1 c ++ leBytes 2 flags ++ leBytes 4 g ++ leBytes 4 cap ++ List.replicate 52 0 }

/-- Camera port 3 with its status word, on chip 0, its power supplies on. -/
def port3 (w : Nat) (x : Port := {}) : State :=
  let s := (up.wr (Reg.MGMT_PORT_CTRL 3) 1).wr (Reg.MGMT_PORT_STAT 3) (BitVec.ofNat 32 w)
  State.setPort { s with panel := { s.panel with pse := true } } 3 x

theorem witness_RackPower :
    (let s := racked
     s.life.off = false ∧ s.rack.loop = [] ∧ s.yarderOn = true ∧ s.lstate 63 = lkUp ∧
       (powerMsg 0 0x24 63 1 100).dst.toNat = s.chipId ∧ leAt (powerMsg 0 0x24 63 1 100).data 0 1 = 1 ∧ s.isCruiser = true ∧
       leAt (powerMsg 0 0x24 63 1 100).data 1 1 = 63) ∧
    (let s := racked {} 0x3F0203
     let p := powerMsg 63 1 63 0x7FFFFFFF 100
     s.yarderOn = true ∧ p.dst.toNat = s.chipId ∧ s.chipId ≠ 0 ∧ s.slotOk = true ∧ leAt p.data 1 1 = s.chipId ∧
       0 < (BitVec.ofNat 32 (leAt p.data 4 4) - s.rd Reg.PWR_GSEQ).toInt ∧ (leAt p.data 2 1).testBit 0 = true ∧
       (leAt (powerMsg 63 0 63 1 100).data 2 1).testBit 0 = false) ∧
    (let l : Lower := { chip := 63, gseq := 9, cap := 90 }
     let s := racked { lowers := [l] }
     s.isCruiser = true ∧ s.rack.lowers = [l] ∧ s.rack.raises = [] ∧ l.chip = leAt (powerMsg 0 0 63 9 90).data 1 1 ∧
       l.gseq = leAt (powerMsg 0 0 63 9 90).data 4 4) ∧
    (let s := (racked { chips := [(63, { joined := true, cap := 5000 })] })
     s.isCruiser = true ∧ s.rack.newBudget = none ∧ s.rack.lowers = [] ∧ (∀ c, c < 64 → (s.cru c).fresh = false) ∧
       s.getF Reg.PWR_CRU_BUDGET 15 0 < s.ledger) ∧
    ((racked { newBudget := some 65535 }).rack.newBudget = some 65535 ∧
      (let l : Lower := { chip := 63, gseq := 9, cap := 90 }
       (racked { lowers := [l], raises := [(5, 63)] }).rack.lowers = [l] ∧ l.late = false ∧
         (racked { lowers := [l], raises := [(5, 63)] }).rack.raises = [(5, 63)])) ∧
    (let s := port3 0x62
     s.pse 3 = 2 ∧ s.portClass 3 = 6 ∧ s.pos = 0 ∧ s.poeSum - s.panel.grants.get 0 3 + poeGrant 6 ≤ s.poeBudget ∧
       s.serves .jtag Reg.MGMT_POE_BUDGET ∧ ¬(s.wr Reg.MGMT_POE_BUDGET 1).poeSum + poeGrant 6 ≤ (s.wr Reg.MGMT_POE_BUDGET 1).poeBudget ∧
       (s.wr Reg.CHIP_POS 0x201).pos ≠ 0 ∧ 4 ≤ (15 : Fin 16).val) ∧
    (((port3 3).wr Reg.CHIP_POS 0x201).pos ≠ 0 ∧ ((port3 3).wr Reg.CHIP_POS 0x201).pse 3 = 3) ∧
    (let s : State := { up with panel := { up.panel with grants := [(15, 600)] } }
     s.pos = 0 ∧ s.poeBudget < (0xFFFF : BitVec 16).toNat ∧ s.shedPick = some 15) ∧
    ((up.wr Reg.PWR_ALERT 2).bit Reg.PWR_ALERT 1 = true ∧ up.serves .jtag Reg.PWR_ALERT ∧
      (up.wr Reg.PWR_ALERT 7).bit Reg.PWR_ALERT 2 = true ∧ up.bit Reg.PWR_ALERT 2 = false) := by
  unfold State.serves
  refine ⟨?_, ?_, ?_, ?_, ?_, ?_, ?_, ?_, ?_⟩ <;> (try dsimp only) <;> decide +kernel

theorem witness_CameraPortsAndPanel :
    (let s := port3 1
     s.life.off = false ∧ s.mayDetect 3 = true ∧ (s.port 3).told = false ∧ s.pse 3 ≠ 2 ∧ s.portLink 3 = false ∧
       s.portEn 3 = !(0 : Word).getLsbD 0 ∧ s.serves .jtag (Reg.MGMT_PORT_CTRL 3) ∧ (s.port 3).tdr = false) ∧
    ((port3 0x103).portLink 3 = true ∧ (port3 0x103).pse 3 = 3 ∧ (port3 3).portLink 3 = false ∧ (port3 3).pse 3 = 3 ∧
      ((port3 3 { tdr := true }).port 3).tdr = true) ∧
    (let s := (port3 0x103 { overN := 59, noMps := 349, offs := [1, 2, 3, 4] })
     s.pse 3 = 3 ∧ 105 * s.getF (Reg.MGMT_PORT_I 3) 31 16 < 54 * (0xFFFF : BitVec 16).toNat ∧ 59 ≤ (s.port 3).overN ∧
       349 ≤ (s.port 3).noMps ∧
       5 ≤ ((s.now :: (s.port 3).offs).filter fun τ => decide (s.now < τ + 60000000000)).length) ∧
    (({ up with panel := { up.panel with vinBad := 99 } } : State).panel.vinBad = 99  ∧ (0xFFFF : BitVec 16).toNat > 1375) ∧
    ((∀ b, b < 3 → up.buttonWired b = true ∧ up.bit Reg.MGMT_BTN (4 + b) = false ∧ (up.button b).down = false) ∧
      up.buttonsOff = false ∧ up.lf ≠ lfRetained) ∧
    (∀ b, b < 3 → ((up.setButton b { down := true }).button b).down = true ∧ ((up.setButton b { down := true }).button b).used = false ∧
      (up.setButton b { down := true }).bit Reg.MGMT_BTN (4 + b) = false ∧ (up.setButton b { down := true }).buttonsOff = false) ∧
    (((serving svRunning).setButton 1 { down := true }).svState = svRunning ∧
      ((serving svQuiesced).setButton 1 { down := true }).svState = svQuiesced ∧ (serving svQuiesced).svc.sameId = false ∧
      (up.setButton 2 { down := true }).pinIs 22 1 = true) ∧
    (let u : State := { up.setLf lfPowerdown 0 with life := { up.life with off := true } }
     u.life.off = true ∧ u.lf = lfPowerdown) ∧
    (let s := up.wr Reg.MGMT_VIN 1375
     s.pos = 0 ∧ (1399 : BitVec 16).toNat < 1400 ∧ 770 ≤ s.getF Reg.MGMT_VIN 15 0 ∧ s.getF Reg.MGMT_VIN 15 0 ≤ 1375) := by
  unfold State.serves
  refine ⟨?_, ?_, ?_, ?_, ?_, ?_, ?_, ?_, ?_⟩ <;> (try dsimp only) <;> decide +kernel

/-- An MRUN of macro 15, row-group 31, whose pass waits for a restore since time 0. -/
def holding : State :=
  up.modTile 143 fun t => { t with
    loads := [{ seq := 0, addr := 0, kind := .mrun (bytes64 [(8, 1, 31), (9, 1, 1)]), prog := SMap.set {} [] 15 { hold := some 0 } }] }

/-- Row 4095 of macro 15 of tile 143 is the next to scrub, with the flipped cells `x`. -/
def scrubbing (x : BitVec 153) : State :=
  let s := (up.setRg 143 15 31 { w := 8, nch := 16 }).modTile 143 fun t => { t with mscrubPtr := 65535 }
  { s.wr Reg.INTEG_CTRL 1 with mflip := SMap.set 0 [] (rowKey 143 15 4095) x }

theorem witness_IntegrityAndTally :
    (let s : State := { up with notices := SMap.set [] [] 3 [7, 8] }
     s.life.off = false ∧ s.serves .jtag (Reg.RANGER 3 0x18) ∧ s.notices.get [] 3 = 7 :: [8] ∧
       (∀ n, n < 144 → (s.tile n).noticeHeld = [])) ∧
    (let s : State := { up with restoreQ := [⟨143, 15, 31, true⟩] }
     s.serves .jtag Reg.INTEG_RQ ∧ s.restoreQ = ⟨143, 15, 31, true⟩ :: [] ∧ (∀ p, p ∈ s.tiles → p.2.holds = [])) ∧
    (up.serves .jtag Reg.INTEG_RST_CTL ∧ up.restore = none ∧ 143 < fld (0x90 : Word) 7 0 ∧ fld (0x8F : Word) 7 0 ≤ 143 ∧
      up.reachable 143 = true ∧ (up.setF (Reg.PWR_Q_STAT 3) 2 0 qGated).reachable 143 = false ∧
      hbmSize < (up.wr Reg.INTEG_RST_SRC_HI 0xFF).getF Reg.INTEG_RST_SRC_HI 7 0 * 2 ^ 32 + 2304 ∧
      up.getF Reg.INTEG_RST_SRC_LO 31 6 * 64 + 2 ^ 32 * up.getF Reg.INTEG_RST_SRC_HI 7 0 + 2304 ≤ hbmSize) ∧
    (let x : Restore := { req := ⟨143, 15, 31, false⟩, src := hbmSize - 2304, got := some (some (List.replicate 2304 1)) }
     let s : State := { hbmUp with restore := some x }
     let u : State := { hbmUp with restore := some { x with got := some none } }
     s.restore = some x ∧ s.reachable 143 = true ∧ (List.replicate 2304 (1#8)).length = 2304 ∧ (s.tile 143).loads = [] ∧
       (s.tile 143).feeder = [] ∧ u.restore = some { x with got := some none } ∧ up.mayIssue 143 = true) ∧
    ((up.tile 143).holds.contains (15, 31) = false ∧ (holding.tile 143).feeder = [] ∧
      (holding.tile 143).holds.contains (15, 31) = true ∧ ∃ op d, (holding.tile 143).loads = [op] ∧ op.kind = .mrun d ∧
        (op.prog.get {} 15).hold.isSome = true ∧ (op.prog.get {} 15).abandoned = false ∧
        leAt d 8 1 + (op.prog.get {} 15).done % leAt d 9 1 = 31) ∧
    (let s := scrubbing 1
     s.bit Reg.INTEG_CTRL 0 = true ∧ s.reachable 143 = true ∧ (s.tile 143).mscrubPtr = 65535 ∧ (s.rg 143 15 31).w ≠ 0 ∧
       (s.tile 143).macroBusy ((s.tile 143).mscrubPtr / 4096) = false ∧
       bitsSet (s.mflip.get 0 (rowKey 143 15 4095)).toNat 153 = [0] ∧
       2 ≤ (bitsSet ((scrubbing (3 <<< 151)).mflip.get 0 (rowKey 143 15 4095)).toNat 153).length ∧
       (scrubbing (3 <<< 151)).healthOf 143 15 31 < rgLost) ∧
    (let s : State := { up with errLog := [⟨1, 2, 3⟩], errLostSec := 5 }
     s.serves .jtag Reg.INTEG_LOG0 ∧ s.errLog = ⟨1, 2, 3⟩ :: [] ∧ s.errLostSec = 5 ∧ up.errLostSec = 0) ∧
    (up.serves .jtag Reg.INTEG_CTRL ∧ up.serves .jtag Reg.INTEG_REP_MAP ∧ up.bit Reg.INTEG_REPAIR 0 = true ∧
      (up.setBit Reg.INTEG_REPAIR 0 false).bit Reg.INTEG_REPAIR 0 = false ∧ up.serves .jtag Reg.INTEG_REPAIR ∧
      fld (0x698108F : Word) 7 0 ≤ 143 ∧ (0x698108F : Word).getLsbD 12 = true ∧ fld (0x698108F : Word) 23 16 ≤ 152 ∧
      fld (0x698108F : Word) 26 24 ≤ 6) ∧
    ((up.putRepairs 5 []).repairCopy ≠ none ∧ (up.putRepairs 5 []).opsecNow < 2 ^ 64) ∧
    (up.bit Reg.TALLY_CTRL 0 = false ∧ up.arrivals = [] ∧ (up.wr Reg.TALLY_CTRL 1).bit Reg.TALLY_CTRL 0 = true ∧
      64 ≤ ({ up with arrivals := List.replicate 64 {} } : State).arrivals.length ∧ up.serves .jtag Reg.TALLY_RAISE_HI ∧
      up.serves .jtag Reg.TALLY_CTRL) := by
  unfold State.serves
  refine ⟨?_, ?_, ?_, ?_, ⟨?_, ?_, ?_, _, _, rfl, rfl, ?_⟩, ?_, ?_, ?_, ?_, ?_⟩ <;> (try dsimp only) <;> decide +kernel

/-- A request that addresses the tag by its UID; and one that is for another tag. -/
def rfHead : RfHead := ⟨false, false, some Config.tagUid⟩
theorem witness_BlazeTag_heads : (⟨true, false, none⟩ : RfHead).select = true ∧ (⟨false, true, none⟩ : RfHead).option = true ∧
    up.blz.quiet = false := by decide +kernel

/-- The wired bridge busy with an operation `c`. -/
def bridging (c : Nat) : State :=
  let s := (up.wr Reg.MGMT_BLZ_CMD (BitVec.ofNat 32 c)).wr Reg.MGMT_BLZ_STAT 1
  { s with blz := { s.blz with cmd := BitVec.ofNat 32 c } }

theorem witness_BlazeTag :
    (rfHead.select = false ∧ rfHead.uid = some Config.tagUid ∧ rfHead.option = false ∧ up.blz.quiet = false ∧
      Config.tagUid.toNat % 2 ^ (0#7).toNat = (0 : Dword).toNat % 2 ^ (0#7).toNat ∧
      Config.tagUid.toNat % 2 ^ (64#7).toNat ≠ (Config.tagUid + 1).toNat % 2 ^ (64#7).toNat) ∧
    (up.mayWrite 2 2047 = true ∧ up.mayWrite 2 0 = false ∧ up.blz.locked.contains 2047 = false ∧ up.lockOwner 2 = 0 ∧
      ((up.putBlock 32 0x12340002).lockOwner 2 = 2 ∧ (up.putBlock 32 0x12340002).lockSession 2 = 0x1234) ∧
      (up.putBlock 33 0x12340001).lockOwner 3 = 1 ∧
      (State.putBlock { up with blz := { up.blz with field := true } } 33 0x12340002).blz.field = true) ∧
    (up.serves .jtag Reg.MGMT_BLZ_CMD ∧ up.bit Reg.MGMT_BLZ_STAT 0 = false ∧ up.pos = 0) ∧
    (let s := bridging (256 + 15 * 4096 + 2 ^ 16)
     s.bit Reg.MGMT_BLZ_STAT 0 = true ∧ s.pos = 0 ∧ fld s.blz.cmd 17 16 = 1 ∧ fld s.blz.cmd 10 0 = 256 ∧ s.lockOwner 2 ≠ 2 ∧
       256 + (fld s.blz.cmd 15 12 + 1) ≤ 2048 ∧ (∀ i, i < 16 → s.mayWrite 1 (256 + i) = true)) ∧
    (let s := (bridging (160 + 2 ^ 16)).putBlock 32 0x12340002
     s.bit Reg.MGMT_BLZ_STAT 0 = true ∧ fld s.blz.cmd 17 16 = 1 ∧ s.lockOwner 2 = 2 ∧ fld s.blz.cmd 10 0 + 0 = 160) ∧
    (let s := bridging (2047 + 2 ^ 16)
     fld s.blz.cmd 17 16 = 1 ∧ s.mayWrite 1 2047 = false ∧ fld (bridging 2047).blz.cmd 17 16 = 0) ∧
    (let s := bridging (2 * 2 ^ 16 + 3 * 2 ^ 18)
     fld s.blz.cmd 17 16 = 2 ∧ fld s.blz.cmd 19 18 = 3 ∧ s.lockOwner 3 = 0 ∧ fld (bridging (3 * 2 ^ 16 + 2 ^ 18)).blz.cmd 17 16 = 3 ∧
       fld (bridging (3 * 2 ^ 16 + 2 ^ 18)).blz.cmd 19 18 < 2) ∧
    (let s := up.recPut recService (List.replicate 32 0xFF)
     s.recGet recService = some (List.replicate 32 0xFF) ∧
       leAt (List.replicate 32 0xFF) 0 1 % 2 ≠ s.getF Reg.MGMT_BLZ_SVC 0 0 ∧ (up.wr Reg.CHIP_POS 0x201).pos ≠ 0) := by
  unfold State.serves
  refine ⟨⟨rfl, rfl, rfl, ?_, ?_, ?_⟩, ?_, ?_, ?_, ?_, ?_, ?_, ?_⟩
  case refine_2 => simp [Nat.mod_one]
  case refine_3 =>
    have := Config.tagUid.isLt
    rw [BitVec.toNat_add, show (64#7).toNat = 64 from rfl, show (1 : Dword).toNat = 1 from rfl]; omega
  all_goals ((try dsimp only); decide +kernel)

/-- A line whose character is eight data bits of 0. -/
def zeros : List Nat := [9 * 16 * (serial).uartDiv 1]

theorem witness_UartsAndPins :
    (let s := serial
     s.life.off = false ∧ s.bit (Reg.UART 1 Reg.UART_CTRL) 0 = true ∧ (s.uart 1).inBreak = false ∧ (s.rxdPin 1).isSome = true ∧
       (s.uart 1).rxCut = none ∧ (s.uart 1).was = none ∧ (s.uart 1).sh = none ∧ s.ureg 1 Reg.PEND &&& 0x1F = 0 ∧
       (s.wr (Reg.UART 1 Reg.PEND) 2).ureg 1 Reg.PEND &&& 0x1F ≠ 0 ∧ s.recoveryOn = false ∧ s.lf = lfRun ∧ s.getF (Reg.UART 1 Reg.UART_CTRL) 3 2 = 0 ∧
       (s.uartFmt 1).getLsbD 6 = false ∧ lineHigh zeros none (8 * s.uartDiv 1) = false ∧
       lineHigh zeros none ((16 * 9 + 8) * s.uartDiv 1) = true ∧ 9 ≤ s.uartStop 1 ∧ (s.uart 1).rx.length < 64 ∧
       64 ≤ ((serial { rx := List.replicate 64 0 }).uart 1).rx.length ∧
       lineHigh [1] none (8 * s.uartDiv 1) = true ∧ s.rxLooks 1 = true ∧ (s.uart 1).idle = false) ∧
    (let s := serial {} 7
     s.uartDiv 1 < 2 * 65535 ∧ s.getF (Reg.UART 1 Reg.UART_CTRL) 3 2 = 1 ∧ s.uartBits 1 = 8 ∧ s.uartParity 1 = 0) ∧
    ((((serial { inBreak := true }).uart 1).inBreak = true) ∧ ((serial { inBreak := true }).uart 1).limitSeen = false ∧
      (0xFFFE < 0xFFFF)) ∧
    ((serial { rx := [1] }).serves .jtag (Reg.UART 1 Reg.UART_RX) ∧ ((serial { rx := [1] }).uart 1).rx = 1 :: [] ∧
      (serial).serves .jtag (Reg.UART 1 Reg.UART_TX) ∧ ((serial).uart 1).tx.length < 64 ∧
      64 ≤ ((serial { tx := List.replicate 64 0 }).uart 1).tx.length) ∧
    (let s := serial { tx := [0xFF], sh := some (0x55, 0) }
     (s.uart 1).sh = some (0x55, 0) ∧ (s.uart 1).tx = 0xFF :: [] ∧ s.bit (Reg.UART 1 Reg.UART_CTRL) 1 = true ∧ (s.uart 1).brk = none ∧
       (s.uart 1).breakUntil = none ∧ (s.uart 1).txCut = none ∧ s.txdOn 1 = true ∧ s.serves .jtag (Reg.UART 1 Reg.UART_BRK) ∧
       s.serves .jtag (Reg.UART 1 Reg.UART_CTRL) ∧ s.ureg 1 Reg.PEND &&& 0x1F = 0) ∧
    (((serial { sh := some (0x55, 0), brk := some 1 }).uart 1).brk = some 1 ∧
      (((serial { sh := some (0x55, 0), txCut := some 0 }).uart 1).txCut = some 0) ∧
      (serial { breakUntil := some 9 }).serves .jtag (Reg.UART 1 Reg.UART_TX) ∧
      ((serial { breakUntil := some 9 }).uart 1).breakUntil ≠ none ∧ ((serial {} 0).bit (Reg.UART 1 Reg.UART_CTRL) 1 = false)) ∧
    (up.torn (Reg.PINS_CFG 31) = false ∧
      (let s := ((up.wr Reg.PINS_GPIO_OE 0x80000000).wr (Reg.PINS_CFG 31) 0).setBit Reg.PINS_HO_BUSY 31 true
       s.getF (Reg.PINS_CFG 31) 2 0 = 0 ∧ s.bit Reg.PINS_GPIO_OE 31 = true ∧ s.pinBusy 31 = true)) ∧
    (up.serves .jtag (Reg.PINS_CFG 31) ∧ pinHasFn 31 (fld (0x32 : Word) 2 0) = true ∧ pinHasFn 31 (fld (3 : Word) 2 0) = false) ∧
    (let s := up.wr Reg.PINS_GPIO_FALL 0x80000000
     s.bit Reg.PINS_GPIO_FALL 31 = true ∧ s.bit Reg.PINS_GPIO_EV 31 = false ∧ s.pinHigh 31 ≠ false ∧ s.pinBusy 31 = false ∧
       s.gpioTold.1.getLsbD 31 = false ∧ s.gpioTold.2 = none) := by
  unfold State.serves
  refine ⟨?_, ?_, ?_, ?_, ?_, ?_, ?_, ?_, ?_⟩ <;> (try dsimp only) <;> decide +kernel

/-! ### Instruction words (Tables 5-1, 5-2 and 6-1), fields written out from bit 31 down -/

/-- The worked example of chapter 05, and NOP, MV and RET of Table 5-3. -/
theorem test_words_of_the_manual :
    decodeWord (.tile 3) 0xFC001286 = .addi (.tile 3) 5 1 0xFC0 ∧ decodeWord (.tile 3) 0xFFD00C98 = .bne (.tile 3) 3 0 0xFFD ∧
    decodeWord (.ranger 1) 0x00000006 = .addi (.ranger 1) 0 0 0 ∧
    decodeWord (.tile 0) 0b000000000000_000_11111_00000_0011010 = .jlr (.tile 0) 0 31 0 ∧
    decodeWord (.tile 0) 0 = .illegalInstruction (.tile 0) 0 := by decide

/-- Formats A, I, U, B and J. -/
theorem test_scalar_words :
    decodeWord (.tile 0) 0b0000000001_00011_00010_00001_0000101 = .sub (.tile 0) 1 2 3 ∧
    decodeWord (.tile 0) 0b0000000101_00011_00010_00001_0001001 = .divu (.tile 0) 1 2 3 ∧
    decodeWord (.tile 0) 0b010000_000111_101_00010_00001_0000110 = .srai (.tile 0) 1 2 7 ∧
    decodeWord (.tile 0) 0b000000001000_110_00101_00100_0001010 = .lwu (.tile 0) 4 5 8 ∧
    decodeWord (.tile 0) 0b111111111000_00110_00010_011_0001100 = .sd (.tile 0) 2 6 0xFF8 ∧
    decodeWord (.tile 0) 0b000000000001_011_00010_00001_0010001 = .vld (.tile 0) 1 2 3 1 ∧
    decodeWord (.tile 0) 0b111111111111_00100_00010_001_0010010 = .vst (.tile 0) 2 4 1 0xFFF ∧
    decodeWord (.tile 0) 0b00010010001101000101_00101_0010100 = .ldhi (.tile 0) 5 0x12345 ∧
    decodeWord (.tile 0) 0b11111111111111111111_11111_0011001 = .jl (.tile 0) 31 0xFFFFF ∧
    decodeWord (.ranger 2) 0b000000000010_001_00111_00000_0011100 = .mtsr (.ranger 2) 2 7 := by decide

/-- Formats V and T. -/
theorem test_vector_and_tensor_words :
    decodeWord (.tile 0) 0b00011_01_010_00011_00010_00001_0100001 = .vfma (.tile 0) 1 1 2 3 2 ∧
    decodeWord (.tile 0) 0b10101_10_000_00010_00001_00011_0100001 = .vcle (.tile 0) 2 3 1 2 0 ∧
    decodeWord (.tile 0) 0b00000_00_111_00101_00010_00001_0100010 = .vcvt (.tile 0) 5 1 2 7 ∧
    decodeWord (.tile 0) 0b01111_00_000_00011_00010_00001_0100010 = .mandn (.tile 0) 1 2 3 ∧
    decodeWord (.tile 0) 0b00000_00010_00000_01001_00000_0101000 = .mscrub (.tile 0) 9 ∧
    decodeWord (.tile 0) 0b00000_00100_00011_00010_00001_0101001 = .accPeek (.tile 0) 1 2 3 ∧
    decodeWord (.tile 0) 0b00001_01001_00000_00010_00001_0101010 = .feRead (.tile 0) true 1 2 ∧
    decodeWord (.tile 0) 0b00111_00000_00000_00010_00001_0101100 = .dmaPost (.tile 0) 1 2 7 ∧
    decodeWord (.tile 0) 0b01111_00111_00000_00000_00000_0101100 = .phase (.tile 0) 15 := by decide

/-- A word with a field that must be 0, a type outside Table 5-10 or a shift of Table 5-6 not assigned is illegal (R139,
R756). -/
theorem test_unassigned_words :
    decodeWord (.tile 0) 0b00111_00_000_00001_00010_00001_0100001 =
      .illegalInstruction (.tile 0) 0b00111_00_000_00001_00010_00001_0100001 ∧
    decodeWord (.tile 0) 0b00011_10_000_00011_00010_00001_0100001 =
      .illegalInstruction (.tile 0) 0b00011_10_000_00011_00010_00001_0100001 ∧
    decodeWord (.tile 0) 0b100000_000111_101_00010_00001_0000110 =
      .illegalInstruction (.tile 0) 0b100000_000111_101_00010_00001_0000110 ∧
    decodeWord (.tile 0) 0b00100_00000_00000_00010_00001_0101010 =
      .illegalInstruction (.tile 0) 0b00100_00000_00000_00010_00001_0101010 := by decide

end Sys2Proof.Tests
end

section
/-! The statements of chapter 04: which lane a mask bit governs, and the return from an exception. -/

namespace Sys2Proof.Machine
open Sys2Proof

/-! ### Masked lanes (R105, R155) -/

/-- What lies in a lane of a vector already fits the lane. -/
theorem lane_mod (w : Nat) (v : BitVec 2048) (i : Nat) : lane w v i % 2 ^ w = lane w v i :=
  Nat.mod_eq_of_lt (lane_lt w v i)

/-- A lane of a masked result: the low bits of the new value where the mask governs it with 1, the old lane elsewhere. -/
theorem lane_maskedLanes (ty : BitVec 2) (m : Dword) (old : BitVec 2048) (f : Nat → Nat) {i : Nat}
    (hi : i < laneCount ty) :
    lane (laneBits ty) (maskedLanes ty m old f) i =
      if laneOn ty m i then f i % 2 ^ laneBits ty else lane (laneBits ty) old i := by
  rw [maskedLanes, lane_ofLanes _ hi (laneBits_laneCount ty)]
  split
  · rfl
  · exact lane_mod _ old i

/-- Settles O16: a lane of a vector built lane by lane is its value modulo the lane width, and an old lane is below it. -/
theorem maskGovernsLanes : Obligations.MaskGovernsLanes := by
  unfold Obligations.MaskGovernsLanes
  intro ty m old f i hi
  exact lane_maskedLanes ty m old f hi

/-! ### Single bits of status -/

/-- The bits of a word after a field of one bit is replaced. -/
theorem getLsbD_setFld_bit {w : Nat} (v : BitVec w) {i : Nat} (hi : i < w) (b : Bool) (j : Nat) :
    (setFld v i i (b2n b)).getLsbD j = if j = i then b else v.getLsbD j := by
  have hfield : ∀ c : Bool, (BitVec.ofNat w (b2n c <<< i)).getLsbD j = (decide (j = i) && c) := by
    intro c
    cases c with
    | false => simp [b2n]
    | true =>
      rw [b2n, if_pos rfl, Nat.one_shiftLeft, BitVec.getLsbD_ofNat, Nat.testBit_two_pow]
      by_cases hj : j = i
      · simp [hj, hi]
      · simp [hj, Ne.symm hj]
  have hmask : (2 ^ (i + 1 - i) - 1) <<< i = b2n true <<< i := by rw [Nat.add_sub_cancel_left]; rfl
  rw [setFld, hmask, BitVec.getLsbD_or, BitVec.getLsbD_and, BitVec.getLsbD_and, BitVec.getLsbD_not, hfield, hfield]
  by_cases hj : j = i
  · simp [hj]
  · cases hv : v.getLsbD j with
    | false => simp [hj]
    | true => simp [hj, BitVec.lt_of_getLsbD hv]

/-! ### A core that goes on after its instruction -/

@[simp] theorem State.core_goto_same (s : State) (c : CoreId) (next : Dword) (f : Core → Core) :
    (s.goto c next f).core c = { f (s.core c).fetched with pc := next, wait := .none } := State.core_modCore_same s c _

theorem State.core_goto_other (s : State) {c d : CoreId} (next : Dword) (f : Core → Core) (h : d ≠ c) :
    (s.goto c next f).core d = s.core d := State.core_modCore_other s _ h

/-- A core that runs waits for nothing. -/
theorem State.coreRuns_wait {s : State} {c : CoreId} (h : s.coreRuns c = true) : (s.core c).wait = .none := by
  simp only [State.coreRuns, Bool.and_eq_true, beq_iff_eq] at h
  exact h.1.2

/-! ### ERET (R123, R153) -/

/-- The core that ERET leaves behind: pc from epc, MODE from PMODE, EXC 0. -/
def Core.returned (x : Core) : Core := { ((x.withStatus 0 x.pmode).withStatus 2 false) with pc := x.epc }

theorem State.excReturn_eq (s : State) (k : Fin 4) : s.excReturn k = s.modCore (.ranger k) Core.returned := rfl

theorem Core.returned_status (x : Core) (i : Nat) :
    x.returned.status.getLsbD i = if i = 2 then false else if i = 0 then x.pmode else x.status.getLsbD i := by
  show (setFld (setFld x.status 0 0 (b2n x.pmode)) 2 2 (b2n false)).getLsbD i = _
  rw [getLsbD_setFld_bit _ (by decide), getLsbD_setFld_bit _ (by decide)]

/-- ERET on a ready Ranger core replaces that core and nothing else. -/
theorem exec_eret_ranger {s : State} {k : Fin 4} (h : s.ready (.ranger k)) :
    exec (.eret (.ranger k)) s = .next (s.goto (.ranger k) (s.core (.ranger k)).epc Core.returned) := by
  refine congrArg Host.Outcome.next (State.issue_goto h _ Core.returned rfl rfl ?_)
  show (((s.modCore (.ranger k) Core.fetched).excReturn k).retireAt (.ranger k) _ _) = _
  rw [State.excReturn_eq, State.core_modCore_same, State.core_modCore_same, State.ready_step h]
  rfl

/-- ERET on a ready tile sequencer raises 0x01 with its own word as tval. -/
theorem exec_eret_tile {s : State} {n : Fin 144} (h : s.ready (.tile n)) :
    exec (.eret (.tile n)) s = .next (s.trapped (.tile n) 0x01 0x4001C) := by
  have hw : zx64 (wordI 0x1C 2 0 0 0) = 0x4001C := by decide
  refine congrArg Host.Outcome.next (State.issue_trap h 0x01 0x4001C ?_)
  show (s.modCore (.tile n) Core.fetched).illegal (.tile n) (wordI 0x1C 2 0 0 0) = _
  rw [State.illegal, hw]

/-- Settles O9: a ready Ranger core is replaced by the one ERET returns to, whose status differs in MODE and EXC alone, and
a tile sequencer takes the exception of an illegal instruction. -/
theorem exceptionReturn : Obligations.ExceptionReturn := by
  unfold Obligations.ExceptionReturn
  intro s c h
  cases c with
  | tile n => exact exec_eret_tile h
  | ranger k =>
    refine ⟨_, exec_eret_ranger h, ?_⟩
    dsimp only
    rw [State.core_goto_same]
    refine ⟨?_, ?_, ?_, ?_, rfl, rfl, rfl, rfl, fun d hd => State.core_goto_other s _ _ hd⟩
    · rw [← State.coreRuns_wait h.1]
      rfl
    · exact Core.returned_status _ 0
    · exact Core.returned_status _ 2
    · intro i h0 h2
      refine (Core.returned_status _ i).trans ?_
      rw [if_neg h2, if_neg h0]
      rfl

end Sys2Proof.Machine
end

section
/-! The statement on division of chapter 05 (R144, Table 5-5). -/

namespace Sys2Proof.Machine
open Sys2Proof

/-! ### A precise exception leaves nothing deferred -/

/-- Taking an exception keeps the reported deferred exceptions of the core. -/
theorem State.takeExc_deferred (s : State) (c : CoreId) (cause epc tval : Dword) :
    ((s.takeExc c cause epc tval).core c).deferred = (s.core c).deferred := by
  cases c with
  | tile n => simp [State.takeExc, State.tileExc, State.core]
  | ranger k =>
    simp only [State.takeExc, State.rangerExc, State.rangerHalt]
    split
    · simp
    · split <;> simp [Core.withStatus]

/-- Dropping an empty list of deferred exceptions. -/
theorem State.flushDeferred_of_nil {s : State} {c : CoreId} (h : (s.core c).deferred = []) :
    s.flushDeferred c = s.modCore c fun x => { x with deferred := [] } := by
  rw [State.flushDeferred, h]
  rfl

/-- A trapped instruction of a ready core leaves nothing to drop: a second drop changes nothing. -/
theorem State.flushDeferred_trapped {s : State} {c : CoreId} (h : s.ready c) (code : Nat) (tval : Dword) :
    (s.trapped c code tval).flushDeferred c = s.trapped c code tval := by
  obtain ⟨-, -, -, -, hdef, -, -⟩ := h
  have hfetched : ((s.modCore c Core.fetched).core c).deferred = [] := by
    rw [State.core_modCore_same]
    exact hdef
  have htaken := fun cause epc => (State.takeExc_deferred (s.modCore c Core.fetched) c cause epc tval).trans hfetched
  rw [State.trapped, State.precise, State.flushDeferred_of_nil (htaken _ _), State.flushDeferred_of_nil,
    State.modCore_modCore]
  rw [State.core_modCore_same]

/-! ### Quotients and remainders of words -/

/-- A quotient of signed words is the quotient of their values rounded towards zero. -/
theorem sdiv_eq_ofInt_tdiv (a b : Dword) : BitVec.sdiv a b = BitVec.ofInt 64 (a.toInt.tdiv b.toInt) :=
  BitVec.eq_of_toInt_eq (by rw [BitVec.toInt_sdiv, BitVec.toInt_ofInt])

/-- A remainder of signed words has the sign of the dividend. -/
theorem srem_eq_ofInt_tmod (a b : Dword) : BitVec.srem a b = BitVec.ofInt 64 (a.toInt.tmod b.toInt) := by
  rw [← BitVec.toInt_srem, BitVec.ofInt_toInt]

/-- The two results of each division: by a zero divisor and by any other (Table 5-5). -/
theorem divS_eq (a b : Dword) :
    divS a b = if b = 0 then BitVec.allOnes 64 else BitVec.ofInt 64 (a.toInt.tdiv b.toInt) := by
  rw [divS, sdiv_eq_ofInt_tdiv]

theorem remS_eq (a b : Dword) : remS a b = if b = 0 then a else BitVec.ofInt 64 (a.toInt.tmod b.toInt) := by
  rw [remS, srem_eq_ofInt_tmod]

theorem divU_eq (a b : Dword) :
    divU a b = if b = 0 then BitVec.allOnes 64 else BitVec.ofNat 64 (a.toNat / b.toNat) := by
  rw [divU, BitVec.udiv_def]

theorem remU_eq (a b : Dword) : remU a b = if b = 0 then a else BitVec.ofNat 64 (a.toNat % b.toNat) := by
  rw [remU, BitVec.umod_def]

/-- Both operands of the one signed quotient that does not fit, as numbers. -/
theorem eq_intMin_iff (a : Dword) : a = BitVec.intMin 64 ↔ a.toInt = -2 ^ 63 := by
  rw [← BitVec.toInt_inj]
  rfl

theorem eq_allOnes_iff (b : Dword) : b = BitVec.allOnes 64 ↔ b.toInt = -1 := by
  rw [← BitVec.toInt_inj]
  rfl

/-! ### A division on a ready core -/

/-- Two instructions with one effect on a ready core, its fetch done, are one command. -/
theorem State.live_issue_congr {s : State} {c : CoreId} (h : s.ready c) {k k' : State → State}
    (hk : k (s.modCore c Core.fetched) = k' (s.modCore c Core.fetched)) :
    s.live (fun s => s.issue c k) = s.live fun s => s.issue c k' := by
  rw [State.live_on (State.coreRuns_on h.1), State.live_on (State.coreRuns_on h.1), State.issue_ready h,
    State.issue_ready h, hk]

/-- A ready division raises 0x0E, raises 0x0F or writes its result. -/
theorem State.divide_ready {s : State} {c : CoreId} (h : s.ready c) (rd rs1 rs2 : BitVec 5) (signed : Bool)
    (f : Dword → Dword → Dword) :
    s.live (fun s => s.divide c rd rs1 rs2 signed f) =
      let x := s.core c
      let a := x.sreg rs1
      let b := x.sreg rs2
      if b = 0 ∧ x.dztrap then s.trapped c 0x0E a
      else if signed ∧ a = BitVec.intMin 64 ∧ b = BitVec.allOnes 64 ∧ x.ovtrap then s.trapped c 0x0F a
      else s.done c fun x => x.setS rd (f a b) := by
  dsimp only
  split
  next hz =>
    refine State.issue_trap h _ _ ?_
    dsimp only
    rw [State.core_modCore_same]
    exact if_pos hz
  next hz =>
    split
    next ho =>
      refine State.issue_trap h _ _ ?_
      dsimp only
      rw [State.core_modCore_same]
      exact (if_neg hz).trans (if_pos ho)
    next ho =>
      refine Eq.trans (State.live_issue_congr h ?_)
        (State.alu_ready h rd (fun _ => f ((s.core c).sreg rs1) ((s.core c).sreg rs2)) _ rfl)
      dsimp only
      rw [State.core_modCore_same]
      exact (if_neg hz).trans (if_neg ho)

/-- A ready division in the terms of Table 5-5: its result `zero` by a zero divisor and `quot` by any other, or the
exception of the edge where it is enabled. -/
theorem State.divide_outcome {s : State} {c : CoreId} (h : s.ready c) (rd rs1 rs2 : BitVec 5) (signed : Bool)
    {f : Dword → Dword → Dword} {zero quot : Dword}
    (hf : f ((s.core c).sreg rs1) ((s.core c).sreg rs2) = if (s.core c).sreg rs2 = 0 then zero else quot) :
    let x := s.core c
    let a := x.sreg rs1
    let b := x.sreg rs2
    let trap := fun (code : Nat) => Host.Outcome.next (φ := Fault) (ρ := Refusal) ((s.trapped c code a).flushDeferred c)
    let gives := fun (v : Dword) => Host.Outcome.next (φ := Fault) (ρ := Refusal) (s.done c fun x => x.setS rd v)
    Host.Outcome.next (s.live fun s => s.divide c rd rs1 rs2 signed f) =
      if b = 0 then (if x.dztrap then trap 0x0E else gives zero)
      else if signed ∧ a.toInt = -2 ^ 63 ∧ b.toInt = -1 ∧ x.ovtrap then trap 0x0F
      else gives quot := by
  dsimp only
  rw [State.divide_ready h]
  dsimp only
  simp only [hf, State.flushDeferred_trapped h, ← eq_intMin_iff, ← eq_allOnes_iff]
  by_cases hb : (s.core c).sreg rs2 = 0
  · have hfit : (0 : Dword) ≠ BitVec.allOnes 64 := by decide
    simp only [hb, hfit, true_and, false_and, and_false, if_true, if_false]
    exact apply_ite Host.Outcome.next _ _ _
  · simp only [hb, false_and, if_false]
    exact apply_ite Host.Outcome.next _ _ _

/-- Settles O2: DIV, REM, DIVU and REMU each by its two results and whether it is signed. -/
theorem divisionResults : Obligations.DivisionResults := by
  unfold Obligations.DivisionResults
  intro s c rd rs1 rs2 h
  dsimp only
  exact List.forall_mem_cons.2 ⟨State.divide_outcome h rd rs1 rs2 true (divS_eq _ _),
    List.forall_mem_cons.2 ⟨State.divide_outcome h rd rs1 rs2 true (remS_eq _ _),
    List.forall_mem_cons.2 ⟨State.divide_outcome h rd rs1 rs2 false (divU_eq _ _),
    List.forall_mem_singleton.2 (State.divide_outcome h rd rs1 rs2 false (remU_eq _ _))⟩⟩⟩

end Sys2Proof.Machine
end
